-- ==== Sys2Proof/Word.lean ====
section
/-! DEFINITION. The word types of the VT11/VS60 display processor: the 16-bit display-file word (R10, R38) and the
byte the host's memory is made of. Addresses and names, whose widths `ADDR_BITS` and `NAME_BITS` are parameters (R9),
are natural numbers below `2^ADDR_BITS` and `2^NAME_BITS`, and address arithmetic is modulo the former (R11, R43; log
1). -/

namespace Sys2Proof

/-- A display-file word, `WORD_BITS` = 16, bit 0 least significant (R9, R10). -/
abbrev Word := BitVec 16

/-- One byte of host memory (R35: the address space is byte-addressed). -/
abbrev Byte := BitVec 8

end Sys2Proof
end

