-- ==== Sys2Proof/Config.lean ====
section
/-! DEFINITION. What an implementation fixes: the parameters of R9 as plain data (`Params`, carried by the state and
written by no step), the named sets they use, the inputs of one cycle, and the free values, opaque constants with no
body. The spec's default values of the parameters are in `Sys2Proof/Machine/Defaults.lean`. -/

namespace Sys2Proof

/-- The two processors the spec describes; VS60 is a strict superset of VT11 (R1, R2). -/
inductive Variant where
  | vt11
  | vs60
deriving DecidableEq, Repr, Inhabited

/-- The two character renderers (R143). -/
inductive Renderer where
  | dotMatrix
  | stroke
deriving DecidableEq, Repr, Inhabited

/-- The ten graphic modes, in the order of their codes 0 to 9 (R23). -/
inductive Mode where
  | char
  | svect
  | lvect
  | point
  | graphx
  | graphy
  | relpoint
  | bsvect
  | circle
  | absvec
deriving DecidableEq, Repr, Inhabited

/-- The four line types, in the order of their codes 0 to 3 (R23, R134). -/
inductive LineType where
  | solid
  | longDash
  | shortDash
  | dotDash
deriving DecidableEq, Repr, Inhabited

/-- A point in raster units, coordinates unbounded integers (R11, R29 `Pt3`). -/
structure Pt3 where
  x : Int
  y : Int
  z : Int
deriving DecidableEq, Repr, Inhabited

/-- One stroke `(vis, du, dv)` of a stroke glyph (R145). -/
structure Stroke where
  vis : Bool
  du  : Int
  dv  : Int
deriving DecidableEq, Repr, Inhabited

/-- One entry of a profile's decay table: the colour handle shown for a cell lit at `level` in `color` after `k` decay
steps (R146). DESIGN CHOICE (log 28): an entry may give the handle `Off`, `none` here; R146 does not say whether a
profile's table may, and the default table never does. -/
structure DecayEntry where
  level  : BitVec 3
  k      : Nat
  color  : BitVec 1
  handle : Option Nat
deriving DecidableEq, Repr, Inhabited

/-- A CRT profile (R146). Its name is the number the host passes to `Init`. `decay` is its decay table; where it lists
no entry the handle is the triple the table is indexed by, as in the default table (log 28). -/
structure Profile where
  name         : Nat
  xres         : Nat
  yres         : Nat
  nColors      : Nat
  stepTicks    : Nat
  maxTtl       : Nat
  refreshTicks : Nat
  decay        : List DecayEntry
deriving DecidableEq, Repr, Inhabited

/-- The parameter set `S.P`, the part of the register file that a stack frame snapshots (R23). -/
structure ParamSet where
  mode        : Mode
  intensity   : BitVec 3
  lineType    : LineType
  lpIntrEna   : Bool
  blinkEna    : Bool
  italics     : Bool
  lpIntensify : Bool
  vscale      : BitVec 4
  csIndex     : BitVec 2
  rotate      : Bool
  depthCue    : Bool
  edgeIntrEna : Bool
  fileZ       : Bool
  charEsc     : Bool
deriving DecidableEq, Repr, Inhabited

/-- How a replaceable function of R9 is given: the spec's reference definition, or the `n`th unknown replacement, a free
value of this file. -/
inductive Choice where
  | reference
  | other (n : Nat)
deriving DecidableEq, Repr, Inhabited

/-- The condition of the character fault, `charFaultCond` (R162, I10): never, which is the default; at the codes listed;
or the `n`th unknown replacement, a free value of this file. -/
inductive FaultCond where
  | never
  | codes (cs : List (BitVec 7))
  | other (n : Nat)
deriving DecidableEq, Repr, Inhabited

/-- The frame-sync period per rate code (R153): the profile's refresh interval for every code, or a table for the
codes 1, 2 and 3. -/
inductive SyncPeriods where
  | refresh
  | table (p1 p2 p3 : Nat)
deriving DecidableEq, Repr, Inhabited

/-- A rectangle of displayed coordinates, its bounds included (R127). -/
structure Viewport where
  xMin : Int
  xMax : Int
  yMin : Int
  yMax : Int
deriving DecidableEq, Repr, Inhabited

/-- The control rows of the opcode table, by name, in the order of the constructors of `Instr`. -/
inductive Op where
  | sgmChar
  | sgmSvect
  | sgmLvect
  | sgmPoint
  | sgmGraphx
  | sgmGraphy
  | sgmRelpoint
  | sgmBsvect
  | sgmCircle
  | sgmAbsvec
  | ldnr
  | lsrc
  | djmpAbs
  | djmpAbsVt11
  | djmpRel
  | djsrAbs
  | djsrRel
  | dnop
  | dnopVt11
  | dpopNr
  | dpopR
  | ldscope
  | lassoc
  | illegalSub5
  | illegalSub6
  | illegalSub7
  | illegalOp7
  | illegalOp8
  | illegalOp9
  | illegalOp10
  | illegalOp11
  | lsra
  | lsrb
  | lsrbVt11
  | lsrbb
  | dstop
deriving DecidableEq, Repr, Inhabited

/-- Where an encoding table takes one bit from: a constant, for a bit that a format does not have, or bit `place` of
word `word` of the instruction or item, words counted from 0. -/
inductive BitRef where
  | zero
  | one
  | bit (word place : Nat)
deriving DecidableEq, Repr, Inhabited

/-- How a number is formed from its field (R66): unsigned, sign-magnitude, or two's complement, the sign bit above the
others. -/
inductive NumForm where
  | unsigned
  | signMagnitude
  | twosComplement
deriving DecidableEq, Repr, Inhabited

/-- A numeric operand of an encoding table: its form, its sign bit and its other bits, as many as it has, the lowest
first. What a negative name or address is taken as, where a table gives one a signed form, is the model's choice
(`natOperand`; log 18). -/
structure OperandFormat where
  form : NumForm
  sign : BitRef
  bits : List BitRef
deriving DecidableEq, Repr, Inhabited

/-- A control row of an encoding table (R5, R50 to R59): the bits of the first word that the row fixes; whether an
operand word follows; the fields of the instruction, in the order of its structure, the lowest bit first; and its
number: the name, the displacement, the address or the associative name, where it has one. A field that a replaced
table does not list is 0 (log 18). -/
structure EncRow where
  op       : Op
  pattern  : List (Nat × Bool)
  twoWords : Bool
  fields   : List (List BitRef)
  operand  : OperandFormat
deriving DecidableEq, Repr, Inhabited

/-- The format of a mode's data item (R51, R60 to R66): its length in words without and with Z words, its intensify
bit, and its operands in the order of R65 in either case; one that a replaced table does not list is 0 (log 18). -/
structure ItemFormat where
  words     : Nat
  wordsZ    : Nat
  lit       : BitRef
  operands  : List OperandFormat
  operandsZ : List OperandFormat
deriving DecidableEq, Repr, Inhabited

/-- An encoding table, the whole field map of 30_encoding.md: the control rows, the first that matches deciding; the
format of each mode's items, OFFSET's beside POINT's with the bit of the first word that tells them apart, BSVECT's
over the 7-bit item as its word; and the bits of the two items of a CHAR and of a BSVECT word. -/
structure EncTable where
  rows     : List EncRow
  svect    : ItemFormat
  lvect    : ItemFormat
  point    : ItemFormat
  offset   : ItemFormat
  graphx   : ItemFormat
  graphy   : ItemFormat
  relpoint : ItemFormat
  bsvect   : ItemFormat
  circle   : ItemFormat
  absvec   : ItemFormat
  off      : BitRef
  char0    : List BitRef
  char1    : List BitRef
  bsvect0  : List BitRef
  bsvect1  : List BitRef
deriving DecidableEq, Repr, Inhabited

/-- The parameter `encoding` (R9, D1): the tables of 30_encoding.md, or a corrected table in their place. -/
inductive Encoding where
  | spec
  | table (t : EncTable)
deriving DecidableEq, Repr, Inhabited

/-- The parameters of R9 a model takes as arguments, as plain data. Fonts list `(code, glyph)` pairs, a code not
listed being an empty glyph; bit `6·row + col` of a dot glyph is its dot `G[col][row]` (R144). Bit `c` of a dash mask
is `DashOn` at counter `c` (R134). -/
structure Params where
  variant       : Variant
  addrBits      : Nat
  nameBits      : Nat
  encoding      : Encoding
  renderer      : Renderer
  xEdge         : Nat
  yEdge         : Nat
  cw            : Nat
  lh            : Nat
  dotFont       : List (BitVec 7 × BitVec 48)
  dotAltFont    : List (BitVec 7 × BitVec 48)
  strokeFont    : List (BitVec 7 × List Stroke)
  strokeAltFont : List (BitVec 7 × List Stroke)
  dashSolid     : BitVec 32
  dashLong      : BitVec 32
  dashShort     : BitVec 32
  dashDot       : BitVec 32
  depthCue      : Choice
  rasterize     : Choice
  arcVertices   : Choice
  arcMax        : Nat
  charFault     : FaultCond
  profiles      : List Profile
  lpRadius      : Nat
  brighten      : Bool
  syncPeriods   : SyncPeriods
  tickMax       : Nat
  resetParams   : ParamSet
  hostRegLayout : Choice
  menuEffect    : Choice
deriving DecidableEq, Repr, Inhabited

/-- The free inputs of one `Cycle(elapsed)`: the elapsed ticks (R75), the sample of the pen, the tip switch and the
blink phase (R76), and whether a fetch of this cycle times out (R36). -/
structure CycleIn where
  elapsed : Nat
  mouseX  : Int
  mouseY  : Int
  tip     : Bool
  blinkOn : Bool
  timeout : Bool
deriving DecidableEq, Repr, Inhabited

/-- FREE VALUE (log 3): the inputs of a cycle that no listed host operation gives, by the number of the cycle. -/
opaque Config.freeInput : Nat → CycleIn

/-- FREE VALUE (log 6): the `n`th replacement of `depthCue` (R109, I4): intensity and displayed Z to intensity. -/
opaque Config.otherDepthCue : Nat → BitVec 3 → Int → BitVec 3

/-- FREE VALUE (log 7): the `n`th replacement of `rasterize` (R132, I1): the raster points of a line. The model uses
one only where it keeps the properties of R133. -/
opaque Config.otherRasterize : Nat → Pt3 → Pt3 → List Pt3

/-- FREE VALUE (log 8): the `n`th replacement of `arcVertices` (R135, I2): start, centre and end to chord vertices. The
model uses one only where it keeps the properties of R135. -/
opaque Config.otherArcVertices : Nat → Pt3 → Pt3 → Pt3 → List Pt3

/-- FREE VALUE (log 9): the `n`th replacement of `charFaultCond` (R162, I10): whether the character item raises the
fault, by its code, the shift state, the position and the number of the cycle. -/
opaque Config.otherCharFault : Nat → BitVec 7 → Bool → Pt3 → Nat → Bool

/-- FREE VALUE (log 9): whether a faulted printing character raises the edge event of a character that crosses the
viewport's boundary, by its code, the position and the number of the cycle. R162 states no answer. -/
opaque Config.charFaultEdge : BitVec 7 → Pt3 → Nat → Bool

/-- FREE VALUE (log 19): the rectangle that the `n`th `menuEffect` clips to while the menu flag is set (R126, I11). -/
opaque Config.otherMenuViewport : Nat → Viewport

/-- FREE VALUE (log 29): the target of a wait for frame sync under a period of 0 ticks, which has no frame boundary
(R153), by the clock. -/
opaque Config.noBoundary : Nat → Nat

/-- FREE VALUE (log 14): the metric taken for half of an odd product, by the product. R140 states only products that
are integers. -/
opaque Config.halfMetric : Int → Int

/-- FREE VALUE (log 13): what the `n`th replacement of `hostRegLayout` reads in the open bits of a device register
(I12, I21, I23), by the register's index, the word of the default layout and the number of the cycle. -/
opaque Config.otherRegRead : Nat → Nat → BitVec 16 → Nat → BitVec 16

/-- FREE VALUE (log 13): the word of the default layout that a write of a register of open layout stands for under the
`n`th replacement of `hostRegLayout` (I12), by the register's index and the word written. -/
opaque Config.otherRegWrite : Nat → Nat → BitVec 16 → BitVec 16

/-- What a write of Graphplot/X-position or CharBuf/Y-position may set: the graphplot increment, the coordinate. -/
structure PosWrite where
  inc   : Option (BitVec 6)
  coord : Option Int
deriving DecidableEq, Repr, Inhabited

/-- FREE VALUE (log 13): what a write of register 2 or 3 sets under the `n`th replacement of `hostRegLayout`, by the
register's index and the word written; R86 leaves that open, the default being nothing. -/
opaque Config.otherPosWrite : Nat → Nat → BitVec 16 → PosWrite

end Sys2Proof
end

