-- ==== Sys2Proof/Machine/Types.lean ====
section
/-! DEFINITION. The types of the state's fields (10_state.md), of the host's operations (R74) and of the calls the core
makes on its collaborators (R73). -/

namespace Sys2Proof.Machine

/-- The eight interrupt reasons, in priority order, which is the order of their codes 0 to 7 (R154, R156). -/
inductive Reason where
  | lightPenHit
  | edgeTransition
  | internalStop
  | externalStop
  | charFault
  | stackFault
  | busTimeout
  | nameMatch
deriving DecidableEq, Repr, Inhabited

/-- The run state (R17). -/
inductive RunState where
  | halted
  | running
  | awaitSync
  | awaitResume (r : Reason)
  | hung
deriving DecidableEq, Repr, Inhabited

/-- The two-word control instructions that wait for their operand word (R29 `ctlPend`). `held` is the model's own:
under a replaced encoding table, the first word of the instruction, from which the table's row is read with the
operand word (log 18). -/
inductive CtlPend where
  | djmpAbs
  | djsrAbs
  | lassoc
  | held (first : Word)
deriving DecidableEq, Repr, Inhabited

/-- The modes that pack two items in a word (R106). -/
inductive PairKind where
  | char
  | bsvect
deriving DecidableEq, Repr, Inhabited

/-- A second item awaiting resumption, with its mode (R29 `pendHalf`). -/
structure Half where
  kind : PairKind
  item : BitVec 7
deriving DecidableEq, Repr, Inhabited

/-- One entry `(x, y, z, i, c)` of a pixel run (R29). -/
structure Pixel where
  x : Int
  y : Int
  z : Int
  i : BitVec 3
  c : BitVec 1
deriving DecidableEq, Repr, Inhabited

/-- The undrawn part of a primitive: its pixels in drawing order and its exit point (R29 `clipPend`, `lpCont`). -/
structure Cont where
  run  : List Pixel
  exit : Option Pt3
deriving DecidableEq, Repr, Inhabited

/-- The control fields outside the parameter set (R24); `cons0` and `cons1` are `consEna`'s bits 0 and 1. `name` and
`assoc` are below `2^NAME_BITS`, `reloc` below `2^ADDR_BITS` (log 1). -/
structure Regs where
  stopIntrEna  : Bool
  syncRate     : BitVec 2
  graphInc     : BitVec 6
  so           : Bool
  nameIntrEna  : Bool
  menu         : Bool
  cons0        : Bool
  cons1        : Bool
  name         : Nat
  assoc        : Nat
  termChar     : BitVec 7
  reloc        : Nat
  color        : BitVec 1
  stackIntrEna : Bool
  stackAddr    : Fin 9
deriving DecidableEq, Repr, Inhabited

/-- A stack frame (R25): the return DPC, the name tag and the parameter set. -/
structure Frame where
  dpc  : Nat
  name : Nat
  P    : ParamSet
deriving DecidableEq, Repr, Inhabited

/-- The status flags (R26). -/
structure Flags where
  stopFlag    : Bool
  extStopFlag : Bool
  lpFlag      : Bool
  tipChanged  : Bool
  tipSw       : Bool
  edgeFlag    : Bool
  edgeExit    : Bool
  stackOver   : Bool
  stackUnder  : Bool
  timeOut     : Bool
  charFault   : Bool
  nameMatch   : Bool
deriving DecidableEq, Repr, Inhabited

/-- The set of latched interrupt requests (R28), one Bool for each reason. -/
structure Pend where
  lightPenHit    : Bool
  edgeTransition : Bool
  internalStop   : Bool
  externalStop   : Bool
  charFault      : Bool
  stackFault     : Bool
  busTimeout     : Bool
  nameMatch      : Bool
deriving DecidableEq, Repr, Inhabited

/-- One cell of the phosphor grid (R30). -/
structure Cell where
  level : BitVec 3
  ttl   : Nat
  color : BitVec 1
  next  : Nat
deriving DecidableEq, Repr, Inhabited

/-- The phosphor engine (R30). `ready` says that an `Init` has succeeded (R147). A cell `(cx, cy)` is named by the
number `cy·W + cx`, `W` the grid's width; `cells` lists the cells that differ from a dark cell never lit, by rising
number; `queue` lists the lit cells in order of `next`. -/
structure Phosphor where
  ready   : Bool
  profile : Profile
  scale   : Nat
  clock   : Nat
  cells   : List (Nat × Cell)
  queue   : List Nat
  penX    : Int
  penY    : Int
deriving DecidableEq, Repr, Inhabited

/-- Host memory, which holds the display file (R35): `(address, byte)` pairs, addresses strictly rising, none listed
with the byte an unlisted address reads as. -/
abbrev Memory := List Host.Cell

/-- The host's operations on the core (R74), and the host CPU's store of a display-file word, which R46 and R48 order
with the core's fetches. `hostWrite 0` and `setDpc` are the same operation (R86). -/
inductive HostOp where
  | cycle (inp : CycleIn)
  | setDpc (v : Word)
  | hostWrite (i : Fin 16) (v : Word)
  | hostRead (i : Fin 16)
  | extStop
  | reset
  | init (name : Nat) (scale : Nat)
  | store (a : Nat) (w : Word)
deriving DecidableEq, Repr, Inhabited

/-- The notification classes, one for each host callback (R158). -/
inductive NotifyClass where
  | surface
  | stop
  | charFault
  | name
deriving DecidableEq, Repr, Inhabited

/-- A colour handle: `Off`, a handle that the profile's decay table lists, or, where it lists none for
`(level, k, color)`, that triple, the default table's opaque handle (R146; log 28). -/
inductive PixelColor where
  | off
  | handle (n : Nat)
  | lit (level : BitVec 3) (k : Nat) (color : BitVec 1)
deriving DecidableEq, Repr, Inhabited

/-- Why an `Init` fails (R147). -/
inductive InitErrorKind where
  | unknownType
  | badScale
  | badInterval
deriving DecidableEq, Repr, Inhabited

/-- A call the core makes on a collaborator (R73): a notification (R158), the video layer's calls (R147, R148, R150),
the hard error of a failed `Init` (R147), and the answer of a register read (R85). -/
inductive OutCall where
  | notify (c : NotifyClass)
  | setPixel (cx cy : Nat) (color : PixelColor)
  | flush
  | videoInit (profile : Profile) (scale : Nat)
  | initError (e : InitErrorKind)
  | answer (i : Fin 16) (v : Word)
deriving DecidableEq, Repr, Inhabited

end Sys2Proof.Machine
end

