-- ==== Sys2Proof/Machine/Defaults.lean ====
section
/-! DEFINITION. The spec's default values of the parameters of R9 and the reset values of the state's parts (R172,
R147), in a file of their own so that a corrected value replaces one here. A parameter's default only lets a model
run. -/

namespace Sys2Proof.Machine

/-- The parameter set after Reset (R23, R172; `resetParams` of R9). -/
def defaultParamSet : ParamSet :=
  { mode := .char, intensity := 4, lineType := .solid, lpIntrEna := false, blinkEna := false, italics := false,
    lpIntensify := false, vscale := 4, csIndex := 1, rotate := false, depthCue := false, edgeIntrEna := false,
    fileZ := false, charEsc := false }

/-- The number by which the host names the profile REF. -/
def refName : Nat := 0

/-- The one profile of the default table, REF (R146). -/
def refProfile : Profile :=
  { name := refName, xres := 1024, yres := 1024, nColors := 1, stepTicks := 10000, maxTtl := 8, refreshTicks := 10000,
    decay := [] }

/-- The renderer of a variant: `Stroke` on the VS60, `DotMatrix` on the VT11 (R143). -/
def defaultRenderer (v : Variant) : Renderer :=
  match v with
  | .vt11 => .dotMatrix
  | .vs60 => .stroke

/-- The parameters of a variant at the spec's defaults (R9). DESIGN CHOICE: the light-pen radius 0 (log 12); `TICK_MAX`,
for which the spec has no default (log 11). The four dash masks list the counter values R134's table lights. -/
def defaultParamsFor (v : Variant) : Params :=
  { variant := v, addrBits := 16, nameBits := 11, encoding := .spec, renderer := defaultRenderer v, xEdge := 1023, yEdge := 1023, cw := 14, lh := 24, dotFont := [],
    dotAltFont := [], strokeFont := [], strokeAltFont := [], dashSolid := 0xFFFFFFFF, dashLong := 0x00FFFFFF,
    dashShort := 0x0F0F0F0F, dashDot := 0x10FF10FF, depthCue := .reference, rasterize := .reference,
    arcVertices := .reference, arcMax := 1024, charFault := .never, profiles := [refProfile], lpRadius := 0,
    brighten := false, syncPeriods := .refresh, tickMax := 0xFFFFFFFF, resetParams := defaultParamSet,
    hostRegLayout := .reference, menuEffect := .reference }

/-- The parameters of the machine that `State.reset` describes. DESIGN CHOICE (log 4): the variant VS60, a strict
superset of the VT11. -/
def defaultParams : Params := defaultParamsFor .vs60

/-- No request latched (R28). -/
def noPend : Pend :=
  { lightPenHit := false, edgeTransition := false, internalStop := false, externalStop := false, charFault := false,
    stackFault := false, busTimeout := false, nameMatch := false }

/-- Every flag 0 (R26, R172). -/
def noFlags : Flags :=
  { stopFlag := false, extStopFlag := false, lpFlag := false, tipChanged := false, tipSw := false, edgeFlag := false,
    edgeExit := false, stackOver := false, stackUnder := false, timeOut := false, charFault := false,
    nameMatch := false }

/-- The control fields after Reset (R24, R172): console 0 on, the stack-fault interrupt enabled, the frame index 8. -/
def resetRegs : Regs :=
  { stopIntrEna := false, syncRate := 0, graphInc := 0, so := false, nameIntrEna := false, menu := false,
    cons0 := true, cons1 := false, name := 0, assoc := 0, termChar := 0, reloc := 0, color := 0, stackIntrEna := true,
    stackAddr := 8 }

/-- A frame never written. DESIGN CHOICE (log 10): the spec leaves the frames' contents at reset unspecified (R25). -/
def resetFrame : Frame := { dpc := 0, name := 0, P := defaultParamSet }

/-- The engine right after a successful `Init(p, scale)` (R30, R147). -/
def initPhosphor (p : Profile) (scale : Nat) : Phosphor :=
  { ready := true, profile := p, scale := scale, clock := 0, cells := [], queue := [], penX := 0, penY := 0 }

end Sys2Proof.Machine
end

