-- ==== Sys2Proof/Machine/State.lean ====
section
/-! DEFINITION. The state of the machine as plain data: every field of 10_state.md under the spec's name, the
parameters (`cfg`, written by no step), the host's display-file memory, and the model's own fields (`blinkOn`, `todo`,
`tick`, `out`), then the reasons a step can stop and the state after reset. -/

namespace Sys2Proof.Machine

/-- The state `S` (R15). The last four fields are the model's own: the blink phase of the last sample (R76), the host
operations still to come, the number of cycles run, to which the free values are applied (log 3), and the calls made
during the last step, the latest first. -/
structure State where
  cfg        : Params
  run        : RunState
  dpc        : Nat
  pos        : Pt3
  off        : Pt3
  rpt        : Pt3
  P          : ParamSet
  regs       : Regs
  stk        : Vector Frame 8
  sp         : Fin 9
  flags      : Flags
  pend       : Pend
  acc        : List Word
  ctlPend    : Option CtlPend
  pendHalf   : Option Half
  clipPend   : Option Cont
  lpCont     : Option Cont
  syncTarget : Nat
  ph         : Phosphor
  mem        : Memory
  blinkOn    : Bool
  todo       : List HostOp
  tick       : Nat
  out        : List OutCall
deriving DecidableEq, Repr

/-- The faults a step can end in: NONE. The spec's faults are interrupt requests, after which the machine goes on
(R154, R161, R162); its runtime paths are total (R163); a failed `Init` leaves an uninitialized engine (R147). That
there is no constructor is safe: no behaviour the spec gives is cut off by one. -/
inductive Fault where
deriving DecidableEq, Repr

/-- Why a step is refused. -/
inductive Refusal where
  /-- Raised by an arm of `exec` for an instruction that has no meaning yet. Safe: nothing is proved of it. -/
  | notModelled (mnemonic : String)
  /-- Raised by a `Cycle` before an `Init` has succeeded, which R147 and I25 tell a model to refuse. Safe: the spec
  gives such a cycle no effect. -/
  | notInitialized
deriving DecidableEq, Repr

/-- What a meaning and a step answer. -/
abbrev Result := Host.Outcome State Fault Refusal

/-- The machine right after the boot sequence's `Init(REF, 1)` and `Reset()` (R172, R174; log 5), memory with nothing
listed and no host operation given. -/
def State.reset : State :=
  { cfg := defaultParams, run := .halted, dpc := 0, pos := ⟨0, 0, 0⟩, off := ⟨0, 0, 0⟩, rpt := ⟨0, 0, 0⟩,
    P := defaultParamSet, regs := resetRegs, stk := Vector.replicate 8 resetFrame, sp := 8, flags := noFlags,
    pend := noPend, acc := [], ctlPend := none, pendHalf := none, clipPend := none, lpCont := none, syncTarget := 0,
    ph := initPhosphor refProfile 1, mem := [], blinkOn := true, todo := [], tick := 0, out := [] }

end Sys2Proof.Machine
end

