-- ==== Sys2Proof/Machine/Flags.lean ====
section
/-! DEFINITION. The status flags (R26): which a START clears, which a RESUME clears, and which a reason owns. -/

namespace Sys2Proof.Machine

/-- START clears every flag but `tipSw`, which is a sample (R82). -/
def startFlags (f : Flags) : Flags := { noFlags with tipSw := f.tipSw }

/-- RESUME clears the two stop flags in every run state (R83). -/
def clearStops (f : Flags) : Flags := { f with stopFlag := false, extStopFlag := false }

/-- RESUME from `AwaitResume(r)` clears the flags of `r`; `edgeExit` and `tipSw` stay (R26, R83). -/
def clearReason (r : Reason) (f : Flags) : Flags :=
  match r with
  | .lightPenHit => { f with lpFlag := false, tipChanged := false }
  | .edgeTransition => { f with edgeFlag := false }
  | .internalStop => f
  | .externalStop => f
  | .charFault => { f with charFault := false }
  | .stackFault => { f with stackOver := false, stackUnder := false }
  | .busTimeout => { f with timeOut := false }
  | .nameMatch => { f with nameMatch := false }

/-- The flags of an edge event (R112). -/
def edgeFlags (isExit : Bool) (f : Flags) : Flags := { f with edgeFlag := true, edgeExit := isExit }

end Sys2Proof.Machine
end

