-- ==== Sys2Proof/Syntax.lean ====
section
/-! DEFINITION. The instructions: one constructor per row of spec/opcode_table.json, with every bit of the row's word
that the row does not fix as a field, ignored and reserved bits included, so that no bit of an encoding is dropped.
Three mnemonics have a VS60 row and a VT11 row; the VT11 row's constructor ends in `Vt11`. The operand word of
DJMP-ABS, DJSR-ABS and LASSOC is fetched by a later cycle (R51, R87) and is no part of the instruction. A name and a
displacement are numbers, whose widths `wellFormed` checks, since another encoding table may give them other widths
(R5); a data word carries the fifteen bits of its word, in the fields of the spec's own formats. -/

namespace Sys2Proof

/-- The fields of SGM below the mode (R52). -/
structure SgmFields where
  li  : Bool
  int : BitVec 3
  llp : Bool
  lp  : Bool
  lbl : Bool
  bl  : Bool
  llt : Bool
  lt  : BitVec 2
deriving DecidableEq, Repr, Inhabited

/-- The fields of LSRA (R53). -/
structure LsraFields where
  stop : Bool
  lsi  : Bool
  si   : Bool
  llpi : Bool
  lpi  : Bool
  lit  : Bool
  it   : Bool
  sync : BitVec 2
  lmn  : Bool
  mn   : Bool
deriving DecidableEq, Repr, Inhabited

/-- The fields of LSRB below bit 10 (R54). -/
structure LsrbFields where
  reserved : BitVec 3
  lgi      : Bool
  gi       : BitVec 6
deriving DecidableEq, Repr, Inhabited

/-- The fields of LSRBB (R54). -/
structure LsrbbFields where
  ldc : Bool
  dc  : Bool
  lei : Bool
  ei  : Bool
  lz  : Bool
  z   : Bool
  les : Bool
  es  : Bool
  lni : Bool
  ni  : Bool
deriving DecidableEq, Repr, Inhabited

/-- The fields of LSRC (R55). -/
structure LsrcFields where
  lro      : Bool
  ro       : Bool
  lcs      : Bool
  cs       : BitVec 2
  lvs      : Bool
  vs       : BitVec 4
  reserved : Bool
deriving DecidableEq, Repr, Inhabited

/-- The fields of LDSCOPE (R58). -/
structure LdscopeFields where
  ignored : BitVec 4
  lc1     : Bool
  c1      : Bool
  lc0     : Bool
  c0      : Bool
deriving DecidableEq, Repr, Inhabited

/-- The fields of a CHAR word: the second and the first character (R60). -/
structure CharFields where
  c1      : BitVec 7
  ignored : Bool
  c0      : BitVec 7
deriving DecidableEq, Repr, Inhabited

/-- The fields of a short-vector word, used by SVECT and RELPOINT (R61). -/
structure SvFields where
  i  : Bool
  sx : Bool
  dx : BitVec 6
  sy : Bool
  dy : BitVec 6
deriving DecidableEq, Repr, Inhabited

/-- The fields of a delta word, used by LVECT and CIRCLE (R62). -/
structure DeltaFields where
  i        : Bool
  s        : Bool
  reserved : BitVec 3
  m        : BitVec 10
deriving DecidableEq, Repr, Inhabited

/-- The fields of a coordinate word, used by POINT, OFFSET, GRAPHX, GRAPHY and ABSVEC (R63). -/
structure CoordFields where
  i        : Bool
  s        : Bool
  off      : Bool
  reserved : BitVec 2
  m        : BitVec 10
deriving DecidableEq, Repr, Inhabited

/-- The fields of a BSVECT word: the second and the first item (R64). -/
structure BsvFields where
  ignored : Bool
  b1      : BitVec 7
  b0      : BitVec 7
deriving DecidableEq, Repr, Inhabited

/-- The fields of one 7-bit item of a BSVECT word (R64). -/
structure BsvItemFields where
  i  : Bool
  sx : Bool
  dx : BitVec 2
  sy : Bool
  dy : BitVec 2
deriving DecidableEq, Repr, Inhabited

/-- The instructions and data words, one constructor per row of the opcode table (R50, R57, R58, R54, R60 to R64). -/
inductive Instr where
  | sgmChar (f : SgmFields)
  | sgmSvect (f : SgmFields)
  | sgmLvect (f : SgmFields)
  | sgmPoint (f : SgmFields)
  | sgmGraphx (f : SgmFields)
  | sgmGraphy (f : SgmFields)
  | sgmRelpoint (f : SgmFields)
  | sgmBsvect (f : SgmFields)
  | sgmCircle (f : SgmFields)
  | sgmAbsvec (f : SgmFields)
  | ldnr (name : Nat)
  | lsrc (f : LsrcFields)
  | djmpAbs (ignored : BitVec 9)
  | djmpAbsVt11 (ignored : BitVec 11)
  | djmpRel (disp : Int)
  | djsrAbs (ignored : BitVec 9)
  | djsrRel (disp : Int)
  | dnop (ignored : BitVec 8)
  | dnopVt11 (ignored : BitVec 11)
  | dpopNr (ignored : BitVec 8)
  | dpopR (ignored : BitVec 8)
  | ldscope (f : LdscopeFields)
  | lassoc (ignored : BitVec 8)
  | illegalSub5 (low : BitVec 8)
  | illegalSub6 (low : BitVec 8)
  | illegalSub7 (low : BitVec 8)
  | illegalOp7 (low : BitVec 11)
  | illegalOp8 (low : BitVec 11)
  | illegalOp9 (low : BitVec 11)
  | illegalOp10 (low : BitVec 11)
  | illegalOp11 (low : BitVec 11)
  | lsra (f : LsraFields)
  | lsrb (f : LsrbFields)
  | lsrbVt11 (ignored : Bool) (f : LsrbFields)
  | lsrbb (f : LsrbbFields)
  | dstop
  | charData (f : CharFields)
  | svectData (f : SvFields)
  | lvectData (f : DeltaFields)
  | pointData (f : CoordFields)
  | offsetData (f : CoordFields)
  | graphxData (f : CoordFields)
  | graphyData (f : CoordFields)
  | relpointData (f : SvFields)
  | bsvectData (f : BsvFields)
  | circleData (f : DeltaFields)
  | absvecData (f : CoordFields)
deriving DecidableEq, Repr, Inhabited

end Sys2Proof
end

