-- ==== Sys2Proof/WellFormed.lean ====
section
/-! DEFINITION. The decoding context of R68 and which instructions it admits: the variant has the row (R50, R67), the
current mode selects the data format (R69), bit 12 of an item's first word tells OFFSET from POINT (R63), and the one
LSRA word that has a name of its own is DSTOP (R72). -/

namespace Sys2Proof

/-- What the decoding of a word depends on (R68): the variant, the current graphic mode, and, in an item partly
assembled, bit 12 of its first word (`none` when the word is the item's first). The item's length, which `P.fileZ`
also decides, does not change which instruction a word is. -/
structure DecodeCtx where
  variant  : Variant
  mode     : Mode
  word0Off : Option Bool
deriving DecidableEq, Repr, Inhabited

/-- The LSRA fields that make the word DSTOP (R72). -/
def dstopFields : LsraFields :=
  { stop := true, lsi := true, si := true, llpi := false, lpi := false, lit := false, it := false, sync := 0,
    lmn := false, mn := false }

/-- Whether a coordinate word of POINT mode belongs to an OFFSET item: on VS60, bit 12 of the item's first word,
`off` being bit 12 of this word; on VT11, never (R63, R118). -/
def isOffsetWord (ctx : DecodeCtx) (off : Bool) : Bool :=
  match ctx.variant with
  | .vt11 => false
  | .vs60 => ctx.word0Off.getD off

/-- Whether the context can decode some word to this instruction under the spec's own encoding; a name has eleven
bits, a displacement nine with its sign (R56, R57). -/
def wellFormed (ctx : DecodeCtx) (i : Instr) : Bool :=
  match i with
  | .sgmChar _ | .sgmSvect _ | .sgmLvect _ | .sgmPoint _ | .sgmGraphx _ | .sgmGraphy _ | .sgmRelpoint _ => true
  | .sgmBsvect _ | .sgmCircle _ | .sgmAbsvec _ | .lsrc _ | .djmpAbs _ | .djsrAbs _ => ctx.variant == .vs60
  | .ldnr name => ctx.variant == .vs60 && decide (name < 2048)
  | .djmpRel disp | .djsrRel disp => ctx.variant == .vs60 && decide (-256 ≤ disp) && decide (disp < 256)
  | .dnop _ | .dpopNr _ | .dpopR _ | .ldscope _ | .lassoc _ => ctx.variant == .vs60
  | .illegalSub5 _ | .illegalSub6 _ | .illegalSub7 _ => ctx.variant == .vs60
  | .illegalOp7 _ | .illegalOp8 _ | .illegalOp9 _ | .illegalOp10 _ | .illegalOp11 _ => ctx.variant == .vt11
  | .djmpAbsVt11 _ | .dnopVt11 _ | .lsrbVt11 _ _ => ctx.variant == .vt11
  | .lsra f => !(f == dstopFields)
  | .lsrb _ | .lsrbb _ => ctx.variant == .vs60
  | .dstop => true
  | .charData _ => ctx.mode == .char
  | .svectData _ => ctx.mode == .svect
  | .lvectData _ => ctx.mode == .lvect
  | .pointData f => ctx.mode == .point && !(isOffsetWord ctx f.off)
  | .offsetData f => ctx.mode == .point && isOffsetWord ctx f.off
  | .graphxData _ => ctx.mode == .graphx
  | .graphyData _ => ctx.mode == .graphy
  | .relpointData _ => ctx.mode == .relpoint
  | .bsvectData _ => ctx.mode == .bsvect
  | .circleData _ => ctx.mode == .circle
  | .absvecData _ => ctx.mode == .absvec

/-- Whether an instruction is a control instruction; the others are graphic-data words (R49). -/
def isControl (i : Instr) : Bool :=
  match i with
  | .sgmChar _ | .sgmSvect _ | .sgmLvect _ | .sgmPoint _ | .sgmGraphx _ | .sgmGraphy _
  | .sgmRelpoint _ | .sgmBsvect _ | .sgmCircle _ | .sgmAbsvec _ | .ldnr _ | .lsrc _ | .djmpAbs _
  | .djmpAbsVt11 _ | .djmpRel _ | .djsrAbs _ | .djsrRel _ | .dnop _ | .dnopVt11 _ | .dpopNr _
  | .dpopR _ | .ldscope _ | .lassoc _ | .illegalSub5 _ | .illegalSub6 _ | .illegalSub7 _
  | .illegalOp7 _ | .illegalOp8 _ | .illegalOp9 _ | .illegalOp10 _ | .illegalOp11 _ | .lsra _
  | .lsrb _ | .lsrbVt11 _ _ | .lsrbb _ | .dstop => true
  | .charData _ | .svectData _ | .lvectData _ | .pointData _ | .offsetData _ | .graphxData _
  | .graphyData _ | .relpointData _ | .bsvectData _ | .circleData _ | .absvecData _ => false

end Sys2Proof
end

