-- ==== Sys2Proof/Decode.lean ====
section
/-! DEFINITION. The decoder and the encoder, from the formats of 30_encoding.md, and the decoder of another encoding
table (the parameter `encoding` of R9, R5, R16). No file but this one reads a bit position of a display-file word. Each
format has a reader `….ofWord` and a writer `….toWord`; the writer lists the fields from bit 15 down. The decoder is
total (R68): a word no row recognizes is one of the ILLEGAL rows. A replaced table is read by the second half of this
file. -/

namespace Sys2Proof

/-- Bit `n` of a word (R10). -/
abbrev bit (w : Word) (n : Nat) : Bool := w.getLsbD n

/-- The unsigned field of `len` bits whose lowest is bit `lo` (R10). -/
abbrev field (w : Word) (lo len : Nat) : BitVec len := w.extractLsb' lo len

/-- A word that holds the field `v` with its lowest bit at bit `lo`, the other bits 0 (R10). -/
def put {n : Nat} (lo : Nat) (v : BitVec n) : Word := v.setWidth 16 <<< lo

/-- A word that holds bit `b` at bit `n`, the other bits 0 (R10). -/
def putBit (n : Nat) (b : Bool) : Word := put n (BitVec.ofBool b)

/-- SGM's fields below the mode (R52). -/
def SgmFields.ofWord (w : Word) : SgmFields :=
  { li := bit w 10, int := field w 7 3, llp := bit w 6, lp := bit w 5, lbl := bit w 4, bl := bit w 3, llt := bit w 2,
    lt := field w 0 2 }

/-- SGM's word with opcode `op` = 1 followed by the mode's code (R52). -/
def SgmFields.toWord (op : BitVec 5) (f : SgmFields) : Word :=
  put 11 op ||| putBit 10 f.li ||| put 7 f.int ||| putBit 6 f.llp ||| putBit 5 f.lp ||| putBit 4 f.lbl
    ||| putBit 3 f.bl ||| putBit 2 f.llt ||| put 0 f.lt

/-- LSRA's fields (R53). -/
def LsraFields.ofWord (w : Word) : LsraFields :=
  { stop := bit w 10, lsi := bit w 9, si := bit w 8, llpi := bit w 7, lpi := bit w 6, lit := bit w 5, it := bit w 4,
    sync := field w 2 2, lmn := bit w 1, mn := bit w 0 }

/-- LSRA's word (R53). -/
def LsraFields.toWord (f : LsraFields) : Word :=
  put 11 0b11110#5 ||| putBit 10 f.stop ||| putBit 9 f.lsi ||| putBit 8 f.si ||| putBit 7 f.llpi
    ||| putBit 6 f.lpi ||| putBit 5 f.lit ||| putBit 4 f.it ||| put 2 f.sync ||| putBit 1 f.lmn
    ||| putBit 0 f.mn

/-- LSRB's fields below bit 10 (R54). -/
def LsrbFields.ofWord (w : Word) : LsrbFields :=
  { reserved := field w 7 3, lgi := bit w 6, gi := field w 0 6 }

/-- LSRB's word, `b10` its bit 10 (R54). -/
def LsrbFields.toWord (b10 : Bool) (f : LsrbFields) : Word :=
  put 11 0b11111#5 ||| putBit 10 b10 ||| put 7 f.reserved ||| putBit 6 f.lgi ||| put 0 f.gi

/-- LSRBB's fields (R54). -/
def LsrbbFields.ofWord (w : Word) : LsrbbFields :=
  { ldc := bit w 9, dc := bit w 8, lei := bit w 7, ei := bit w 6, lz := bit w 5, z := bit w 4, les := bit w 3,
    es := bit w 2, lni := bit w 1, ni := bit w 0 }

/-- LSRBB's word (R54). -/
def LsrbbFields.toWord (f : LsrbbFields) : Word :=
  put 10 0b111111#6 ||| putBit 9 f.ldc ||| putBit 8 f.dc ||| putBit 7 f.lei ||| putBit 6 f.ei ||| putBit 5 f.lz
    ||| putBit 4 f.z ||| putBit 3 f.les ||| putBit 2 f.es ||| putBit 1 f.lni ||| putBit 0 f.ni

/-- LSRC's fields (R55). -/
def LsrcFields.ofWord (w : Word) : LsrcFields :=
  { lro := bit w 10, ro := bit w 9, lcs := bit w 8, cs := field w 6 2, lvs := bit w 5, vs := field w 1 4,
    reserved := bit w 0 }

/-- LSRC's word (R55). -/
def LsrcFields.toWord (f : LsrcFields) : Word :=
  put 11 0b11011#5 ||| putBit 10 f.lro ||| putBit 9 f.ro ||| putBit 8 f.lcs ||| put 6 f.cs ||| putBit 5 f.lvs
    ||| put 1 f.vs ||| putBit 0 f.reserved

/-- LDSCOPE's fields (R58). -/
def LdscopeFields.ofWord (w : Word) : LdscopeFields :=
  { ignored := field w 4 4, lc1 := bit w 3, c1 := bit w 2, lc0 := bit w 1, c0 := bit w 0 }

/-- LDSCOPE's word (R58). -/
def LdscopeFields.toWord (f : LdscopeFields) : Word :=
  put 8 0b11101011#8 ||| put 4 f.ignored ||| putBit 3 f.lc1 ||| putBit 2 f.c1 ||| putBit 1 f.lc0
    ||| putBit 0 f.c0

/-- A CHAR word's fields (R60). -/
def CharFields.ofWord (w : Word) : CharFields :=
  { c1 := field w 8 7, ignored := bit w 7, c0 := field w 0 7 }

/-- A CHAR word (R60). -/
def CharFields.toWord (f : CharFields) : Word :=
  put 8 f.c1 ||| putBit 7 f.ignored ||| put 0 f.c0

/-- A short-vector word's fields (R61). -/
def SvFields.ofWord (w : Word) : SvFields :=
  { i := bit w 14, sx := bit w 13, dx := field w 7 6, sy := bit w 6, dy := field w 0 6 }

/-- A short-vector word (R61). -/
def SvFields.toWord (f : SvFields) : Word :=
  putBit 14 f.i ||| putBit 13 f.sx ||| put 7 f.dx ||| putBit 6 f.sy ||| put 0 f.dy

/-- A delta word's fields (R62). -/
def DeltaFields.ofWord (w : Word) : DeltaFields :=
  { i := bit w 14, s := bit w 13, reserved := field w 10 3, m := field w 0 10 }

/-- A delta word (R62). -/
def DeltaFields.toWord (f : DeltaFields) : Word :=
  putBit 14 f.i ||| putBit 13 f.s ||| put 10 f.reserved ||| put 0 f.m

/-- A coordinate word's fields (R63). -/
def CoordFields.ofWord (w : Word) : CoordFields :=
  { i := bit w 14, s := bit w 13, off := bit w 12, reserved := field w 10 2, m := field w 0 10 }

/-- A coordinate word (R63). -/
def CoordFields.toWord (f : CoordFields) : Word :=
  putBit 14 f.i ||| putBit 13 f.s ||| putBit 12 f.off ||| put 10 f.reserved ||| put 0 f.m

/-- A BSVECT word's fields (R64). -/
def BsvFields.ofWord (w : Word) : BsvFields :=
  { ignored := bit w 14, b1 := field w 7 7, b0 := field w 0 7 }

/-- A BSVECT word (R64). -/
def BsvFields.toWord (f : BsvFields) : Word :=
  putBit 14 f.ignored ||| put 7 f.b1 ||| put 0 f.b0

/-- The fields of a 7-bit BSVECT item (R64). -/
def BsvItemFields.ofItem (b : BitVec 7) : BsvItemFields :=
  { i := b.getLsbD 6, sx := b.getLsbD 5, dx := b.extractLsb' 3 2, sy := b.getLsbD 2, dy := b.extractLsb' 0 2 }

/-- The LSRA group: DSTOP is the one word with a name of its own (R53, R72). -/
def decodeLsra (w : Word) : Instr :=
  let f := LsraFields.ofWord w
  if f = dstopFields then .dstop else .lsra f

/-- VS60's jump group by JSR and REL (R57). -/
def decodeJump (w : Word) : Instr :=
  match bit w 10, bit w 9 with
  | false, false => .djmpAbs (field w 0 9)
  | false, true => .djmpRel (field w 0 9).toInt
  | true, false => .djsrAbs (field w 0 9)
  | true, true => .djsrRel (field w 0 9).toInt

/-- VS60's group 13 by SUB (R58, R67). -/
def decodeGroup13 (w : Word) : Instr :=
  match bit w 10, bit w 9, bit w 8 with
  | false, false, false => .dnop (field w 0 8)
  | false, false, true => .dpopNr (field w 0 8)
  | false, true, false => .dpopR (field w 0 8)
  | false, true, true => .ldscope (LdscopeFields.ofWord w)
  | true, false, false => .lassoc (field w 0 8)
  | true, false, true => .illegalSub5 (field w 0 8)
  | true, true, false => .illegalSub6 (field w 0 8)
  | true, true, true => .illegalSub7 (field w 0 8)

/-- A control word by its opcode `w[14:11]` and the variant (R50, R54, R57, R58, R67). -/
def decodeControl (v : Variant) (w : Word) : Instr :=
  match bit w 14, bit w 13, bit w 12, bit w 11 with
  | false, false, false, false => .sgmChar (SgmFields.ofWord w)
  | false, false, false, true => .sgmSvect (SgmFields.ofWord w)
  | false, false, true, false => .sgmLvect (SgmFields.ofWord w)
  | false, false, true, true => .sgmPoint (SgmFields.ofWord w)
  | false, true, false, false => .sgmGraphx (SgmFields.ofWord w)
  | false, true, false, true => .sgmGraphy (SgmFields.ofWord w)
  | false, true, true, false => .sgmRelpoint (SgmFields.ofWord w)
  | false, true, true, true =>
    match v with
    | .vs60 => .sgmBsvect (SgmFields.ofWord w)
    | .vt11 => .illegalOp7 (field w 0 11)
  | true, false, false, false =>
    match v with
    | .vs60 => .sgmCircle (SgmFields.ofWord w)
    | .vt11 => .illegalOp8 (field w 0 11)
  | true, false, false, true =>
    match v with
    | .vs60 => .sgmAbsvec (SgmFields.ofWord w)
    | .vt11 => .illegalOp9 (field w 0 11)
  | true, false, true, false =>
    match v with
    | .vs60 => .ldnr (field w 0 11).toNat
    | .vt11 => .illegalOp10 (field w 0 11)
  | true, false, true, true =>
    match v with
    | .vs60 => .lsrc (LsrcFields.ofWord w)
    | .vt11 => .illegalOp11 (field w 0 11)
  | true, true, false, false =>
    match v with
    | .vs60 => decodeJump w
    | .vt11 => .djmpAbsVt11 (field w 0 11)
  | true, true, false, true =>
    match v with
    | .vs60 => decodeGroup13 w
    | .vt11 => .dnopVt11 (field w 0 11)
  | true, true, true, false => decodeLsra w
  | true, true, true, true =>
    match v with
    | .vs60 => if bit w 10 then .lsrbb (LsrbbFields.ofWord w) else .lsrb (LsrbFields.ofWord w)
    | .vt11 => .lsrbVt11 (bit w 10) (LsrbFields.ofWord w)

/-- A graphic-data word by the current mode (R69, R60 to R64); in POINT mode the item's first word tells OFFSET (R63).
-/
def decodeData (ctx : DecodeCtx) (w : Word) : Instr :=
  match ctx.mode with
  | .char => .charData (CharFields.ofWord w)
  | .svect => .svectData (SvFields.ofWord w)
  | .lvect => .lvectData (DeltaFields.ofWord w)
  | .point =>
    if isOffsetWord ctx (bit w 12) then .offsetData (CoordFields.ofWord w) else .pointData (CoordFields.ofWord w)
  | .graphx => .graphxData (CoordFields.ofWord w)
  | .graphy => .graphyData (CoordFields.ofWord w)
  | .relpoint => .relpointData (SvFields.ofWord w)
  | .bsvect => .bsvectData (BsvFields.ofWord w)
  | .circle => .circleData (DeltaFields.ofWord w)
  | .absvec => .absvecData (CoordFields.ofWord w)

/-- The decoder: a word with bit 15 set is a control instruction, one with bit 15 clear a graphic-data word (R49). -/
def decode (ctx : DecodeCtx) (w : Word) : Instr :=
  if bit w 15 then decodeControl ctx.variant w else decodeData ctx w

/-- The address of an ADDR operand word, bit 0 ignored and read as 0 (R59). -/
def addrOperand (w : Word) : Nat := (w &&& 0xFFFE).toNat

/-- The associative name of an ASSOC operand word (R59). -/
def assocOperand (w : Word) : Nat := (field w 0 11).toNat

/-! ## Another encoding table -/

/-- Word `k` of an instruction or item, counted from 0. DESIGN CHOICE (log 18): a word that it does not have, which only a
replaced table can name, reads as 0. -/
def wordAt (ws : List Word) (k : Nat) : Word := ws.getD k 0

/-- A bit that a table names. DESIGN CHOICE (log 18): a bit of a word that the item does not have, and one numbered above
15, reads as 0. -/
def refBit (ws : List Word) (r : BitRef) : Bool :=
  match r with
  | .zero => false
  | .one => true
  | .bit k n => bit (wordAt ws k) n

/-- The unsigned value of a table's field, its bits listed the lowest first; a field may have any width, and one of no
bits is 0 (DESIGN CHOICE, log 18). -/
def fieldVal (ws : List Word) (bits : List BitRef) : Nat := bits.foldr (fun r acc => 2 * acc + (refBit ws r).toNat) 0

/-- The value of a table's operand (R66). -/
def operandVal (ws : List Word) (f : OperandFormat) : Int :=
  match f.form with
  | .unsigned => fieldVal ws f.bits
  | .signMagnitude => if refBit ws f.sign then -(fieldVal ws f.bits : Int) else fieldVal ws f.bits
  | .twosComplement => (fieldVal ws f.bits : Int) - (if refBit ws f.sign then 2 ^ f.bits.length else 0)

/-- A table's operand as a name, an address or an associative name, which are natural numbers. DESIGN CHOICE (log 18):
a replaced table may give one a signed form, and a negative number is then taken as 0, not modulo the register's width
or the address space; the spec gives no signed name or address (R5, R101). -/
abbrev natOperand (x : Int) : Nat := x.toNat

/-- The flag of a field value: its lowest bit. -/
def flagOf (n : Nat) : Bool := n.testBit 0

/-- SGM's fields from field values, in the order of the structure (R52). -/
def SgmFields.ofVals (v : Nat → Nat) : SgmFields :=
  { li := flagOf (v 0), int := BitVec.ofNat 3 (v 1), llp := flagOf (v 2), lp := flagOf (v 3), lbl := flagOf (v 4),
    bl := flagOf (v 5), llt := flagOf (v 6), lt := BitVec.ofNat 2 (v 7) }

/-- LSRA's fields from field values (R53). -/
def LsraFields.ofVals (v : Nat → Nat) : LsraFields :=
  { stop := flagOf (v 0), lsi := flagOf (v 1), si := flagOf (v 2), llpi := flagOf (v 3), lpi := flagOf (v 4),
    lit := flagOf (v 5), it := flagOf (v 6), sync := BitVec.ofNat 2 (v 7), lmn := flagOf (v 8), mn := flagOf (v 9) }

/-- LSRB's fields from field values (R54). -/
def LsrbFields.ofVals (v : Nat → Nat) : LsrbFields :=
  { reserved := BitVec.ofNat 3 (v 0), lgi := flagOf (v 1), gi := BitVec.ofNat 6 (v 2) }

/-- LSRBB's fields from field values (R54). -/
def LsrbbFields.ofVals (v : Nat → Nat) : LsrbbFields :=
  { ldc := flagOf (v 0), dc := flagOf (v 1), lei := flagOf (v 2), ei := flagOf (v 3), lz := flagOf (v 4),
    z := flagOf (v 5), les := flagOf (v 6), es := flagOf (v 7), lni := flagOf (v 8), ni := flagOf (v 9) }

/-- LSRC's fields from field values (R55). -/
def LsrcFields.ofVals (v : Nat → Nat) : LsrcFields :=
  { lro := flagOf (v 0), ro := flagOf (v 1), lcs := flagOf (v 2), cs := BitVec.ofNat 2 (v 3), lvs := flagOf (v 4),
    vs := BitVec.ofNat 4 (v 5), reserved := flagOf (v 6) }

/-- LDSCOPE's fields from field values (R58). -/
def LdscopeFields.ofVals (v : Nat → Nat) : LdscopeFields :=
  { ignored := BitVec.ofNat 4 (v 0), lc1 := flagOf (v 1), c1 := flagOf (v 2), lc0 := flagOf (v 3), c0 := flagOf (v 4) }

/-- The instruction of a row's name with its field values, in the order of its structure, and its number `x`; LDNR's name
is a natural number (`natOperand`; log 18). -/
def buildInstr (op : Op) (v : Nat → Nat) (x : Int) : Instr :=
  match op with
  | .sgmChar => .sgmChar (SgmFields.ofVals v)
  | .sgmSvect => .sgmSvect (SgmFields.ofVals v)
  | .sgmLvect => .sgmLvect (SgmFields.ofVals v)
  | .sgmPoint => .sgmPoint (SgmFields.ofVals v)
  | .sgmGraphx => .sgmGraphx (SgmFields.ofVals v)
  | .sgmGraphy => .sgmGraphy (SgmFields.ofVals v)
  | .sgmRelpoint => .sgmRelpoint (SgmFields.ofVals v)
  | .sgmBsvect => .sgmBsvect (SgmFields.ofVals v)
  | .sgmCircle => .sgmCircle (SgmFields.ofVals v)
  | .sgmAbsvec => .sgmAbsvec (SgmFields.ofVals v)
  | .ldnr => .ldnr (natOperand x)
  | .lsrc => .lsrc (LsrcFields.ofVals v)
  | .djmpAbs => .djmpAbs (BitVec.ofNat 9 (v 0))
  | .djmpAbsVt11 => .djmpAbsVt11 (BitVec.ofNat 11 (v 0))
  | .djmpRel => .djmpRel x
  | .djsrAbs => .djsrAbs (BitVec.ofNat 9 (v 0))
  | .djsrRel => .djsrRel x
  | .dnop => .dnop (BitVec.ofNat 8 (v 0))
  | .dnopVt11 => .dnopVt11 (BitVec.ofNat 11 (v 0))
  | .dpopNr => .dpopNr (BitVec.ofNat 8 (v 0))
  | .dpopR => .dpopR (BitVec.ofNat 8 (v 0))
  | .ldscope => .ldscope (LdscopeFields.ofVals v)
  | .lassoc => .lassoc (BitVec.ofNat 8 (v 0))
  | .illegalSub5 => .illegalSub5 (BitVec.ofNat 8 (v 0))
  | .illegalSub6 => .illegalSub6 (BitVec.ofNat 8 (v 0))
  | .illegalSub7 => .illegalSub7 (BitVec.ofNat 8 (v 0))
  | .illegalOp7 => .illegalOp7 (BitVec.ofNat 11 (v 0))
  | .illegalOp8 => .illegalOp8 (BitVec.ofNat 11 (v 0))
  | .illegalOp9 => .illegalOp9 (BitVec.ofNat 11 (v 0))
  | .illegalOp10 => .illegalOp10 (BitVec.ofNat 11 (v 0))
  | .illegalOp11 => .illegalOp11 (BitVec.ofNat 11 (v 0))
  | .lsra => .lsra (LsraFields.ofVals v)
  | .lsrb => .lsrb (LsrbFields.ofVals v)
  | .lsrbVt11 => .lsrbVt11 (flagOf (v 3)) (LsrbFields.ofVals v)
  | .lsrbb => .lsrbb (LsrbbFields.ofVals v)
  | .dstop => .dstop

/-- The instruction that a table row reads from the words of an instruction, one or two. DESIGN CHOICE (log 18): a field
that the row does not list is 0. -/
def rowInstr (r : EncRow) (ws : List Word) : Instr :=
  buildInstr r.op (fun k => fieldVal ws (r.fields.getD k [])) (operandVal ws r.operand)

/-- Whether the variant has a row's instruction (R50, R67), which the fields do not change. -/
def opOnVariant (v : Variant) (op : Op) : Bool :=
  wellFormed { variant := v, mode := .char, word0Off := none } (buildInstr op (fun _ => 0) 0)

/-- Whether a table row recognizes a control word: the variant has the instruction and the bits the row fixes agree. -/
def rowMatches (v : Variant) (w : Word) (r : EncRow) : Bool :=
  opOnVariant v r.op && r.pattern.all fun p => bit w p.1 == p.2

/-- The first row of a table that recognizes a control word; that the first decides, where a replaced table has two, is a
DESIGN CHOICE (log 18). -/
def EncTable.row (t : EncTable) (v : Variant) (w : Word) : Option EncRow := t.rows.find? (rowMatches v w)

/-- The row of a control word under the parameter `encoding` (R9); the spec's own encoding, which `decode` reads, has no
rows to replace. -/
def tableRow (e : Encoding) (v : Variant) (w : Word) : Option EncRow :=
  match e with
  | .spec => none
  | .table t => t.row v w

/-- The format of a mode's item, `off` telling OFFSET from POINT (R51). A CHAR word has no item of this kind. -/
def EncTable.item (t : EncTable) (m : Mode) (off : Bool) : ItemFormat :=
  match m with
  | .char => default
  | .svect => t.svect
  | .lvect => t.lvect
  | .point => if off then t.offset else t.point
  | .graphx => t.graphx
  | .graphy => t.graphy
  | .relpoint => t.relpoint
  | .bsvect => t.bsvect
  | .circle => t.circle
  | .absvec => t.absvec

/-- An item's length in words by its format, at least one (R51); that a format of 0 words has one is a DESIGN CHOICE
(log 18). -/
def ItemFormat.length (f : ItemFormat) (z : Bool) : Nat := max 1 (if z then f.wordsZ else f.words)

/-- Operand `k` of an item by its format, `z` telling whether it has Z words (R65, R66). DESIGN CHOICE (log 18): an
operand that the format does not list is 0; the spec does not say what an incomplete table means. -/
def ItemFormat.operand (f : ItemFormat) (z : Bool) (k : Nat) (ws : List Word) : Int :=
  match (if z then f.operandsZ else f.operands)[k]? with
  | some o => operandVal ws o
  | none => 0

/-- Whether a first word in POINT mode begins an OFFSET item (R63). -/
def firstIsOffset (e : Encoding) (w : Word) : Bool :=
  match e with
  | .spec => (CoordFields.ofWord w).off
  | .table t => refBit [w] t.off

/-- A graphic-data word under a table, by the current mode; the table's bit of the item's first word tells OFFSET (R63,
R69). The word's bits are kept in the fields of the spec's formats, and the item reads its operands from the words. -/
def decodeTableData (t : EncTable) (ctx : DecodeCtx) (w : Word) : Instr :=
  decodeData { ctx with word0Off := some (ctx.word0Off.getD (refBit [w] t.off)) } w

/-- The two items of a CHAR word, the first first (R60). -/
def charPair (e : Encoding) (f : CharFields) : BitVec 7 × BitVec 7 :=
  match e with
  | .spec => (f.c0, f.c1)
  | .table t => (BitVec.ofNat 7 (fieldVal [f.toWord] t.char0), BitVec.ofNat 7 (fieldVal [f.toWord] t.char1))

/-- The two items of a BSVECT word, the first first (R64). -/
def bsvectPair (e : Encoding) (f : BsvFields) : BitVec 7 × BitVec 7 :=
  match e with
  | .spec => (f.b0, f.b1)
  | .table t => (BitVec.ofNat 7 (fieldVal [f.toWord] t.bsvect0), BitVec.ofNat 7 (fieldVal [f.toWord] t.bsvect1))

/-! ## The tables of 30_encoding.md as such a table -/

/-- Bits `lo` to `lo + len - 1` of word `k`, the lowest first. -/
def bitsFrom (k lo len : Nat) : List BitRef := (List.range len).map fun n => .bit k (lo + n)

/-- The pattern that fixes `len` bits from bit `lo` up at the bits of `v`. -/
def fixedBits (lo len v : Nat) : List (Nat × Bool) := (List.range len).map fun k => (lo + k, v.testBit k)

/-- No number. -/
def noOperand : OperandFormat := { form := .unsigned, sign := .zero, bits := [] }

/-- An unsigned number of `len` bits from bit `lo` of word `k`. -/
def unsignedAt (k lo len : Nat) : OperandFormat := { form := .unsigned, sign := .zero, bits := bitsFrom k lo len }

/-- A one-word control row without a number, its opcode the bits from `lo` up. -/
def row (op : Op) (lo v : Nat) (fields : List (List BitRef)) : EncRow :=
  { op := op, pattern := fixedBits lo (16 - lo) v, twoWords := false, fields := fields, operand := noOperand }

/-- The flags at the bits listed of the first word. -/
def flagsAt (places : List Nat) : List (List BitRef) := places.map fun n => [.bit 0 n]

/-- SGM's row (R52). -/
def sgmRow (op : Op) (v : Nat) : EncRow :=
  row op 11 v ([[.bit 0 10], bitsFrom 0 7 3] ++ flagsAt [6, 5, 4, 3, 2] ++ [bitsFrom 0 0 2])

/-- LSRA's field positions; on the VT11 bit 3 reads as 0 in SYNC (R53). -/
def lsraPlaces (v : Variant) : List (List BitRef) :=
  flagsAt [10, 9, 8, 7, 6, 5, 4] ++ [if v = .vs60 then bitsFrom 0 2 2 else [.bit 0 2]] ++ flagsAt [1, 0]

/-- The address of an ADDR operand word, bit 0 read as 0 (R59). -/
def addrFormat : OperandFormat := { form := .unsigned, sign := .zero, bits := .zero :: bitsFrom 1 1 15 }

/-- The displacement (R57, R66). -/
def dispFormat : OperandFormat := { form := .twosComplement, sign := .bit 0 8, bits := bitsFrom 0 0 8 }

/-- The control rows of both variants (R50 to R59, R67, R72). -/
def specRows (v : Variant) : List EncRow :=
  [sgmRow .sgmChar 0b10000, sgmRow .sgmSvect 0b10001, sgmRow .sgmLvect 0b10010, sgmRow .sgmPoint 0b10011,
   sgmRow .sgmGraphx 0b10100, sgmRow .sgmGraphy 0b10101, sgmRow .sgmRelpoint 0b10110, sgmRow .sgmBsvect 0b10111,
   sgmRow .sgmCircle 0b11000, sgmRow .sgmAbsvec 0b11001,
   { row .ldnr 11 0b11010 [] with operand := unsignedAt 0 0 11 },
   row .lsrc 11 0b11011 (flagsAt [10, 9, 8] ++ [bitsFrom 0 6 2, [.bit 0 5], bitsFrom 0 1 4, [.bit 0 0]]),
   { row .djmpAbs 9 0b1110000 [bitsFrom 0 0 9] with twoWords := true, operand := addrFormat },
   { row .djmpAbsVt11 11 0b11100 [bitsFrom 0 0 11] with twoWords := true, operand := addrFormat },
   { row .djmpRel 9 0b1110001 [] with operand := dispFormat },
   { row .djsrAbs 9 0b1110010 [bitsFrom 0 0 9] with twoWords := true, operand := addrFormat },
   { row .djsrRel 9 0b1110011 [] with operand := dispFormat },
   row .dnop 8 0b11101000 [bitsFrom 0 0 8], row .dnopVt11 11 0b11101 [bitsFrom 0 0 11],
   row .dpopNr 8 0b11101001 [bitsFrom 0 0 8], row .dpopR 8 0b11101010 [bitsFrom 0 0 8],
   row .ldscope 8 0b11101011 (bitsFrom 0 4 4 :: flagsAt [3, 2, 1, 0]),
   { row .lassoc 8 0b11101100 [bitsFrom 0 0 8] with twoWords := true, operand := unsignedAt 1 0 11 },
   row .illegalSub5 8 0b11101101 [bitsFrom 0 0 8], row .illegalSub6 8 0b11101110 [bitsFrom 0 0 8],
   row .illegalSub7 8 0b11101111 [bitsFrom 0 0 8], row .illegalOp7 11 0b10111 [bitsFrom 0 0 11],
   row .illegalOp8 11 0b11000 [bitsFrom 0 0 11], row .illegalOp9 11 0b11001 [bitsFrom 0 0 11],
   row .illegalOp10 11 0b11010 [bitsFrom 0 0 11], row .illegalOp11 11 0b11011 [bitsFrom 0 0 11],
   row .dstop 0 0xF700 [], row .lsra 11 0b11110 (lsraPlaces v),
   row .lsrb 10 0b111110 [bitsFrom 0 7 3, [.bit 0 6], bitsFrom 0 0 6],
   row .lsrbVt11 11 0b11111 [bitsFrom 0 7 3, [.bit 0 6], bitsFrom 0 0 6, [.bit 0 10]],
   row .lsrbb 10 0b111111 (flagsAt [9, 8, 7, 6, 5, 4, 3, 2, 1, 0])]

/-- A sign-magnitude number, its sign at bit `s` of word `k` and `len` bits from bit `lo` (R66). -/
def signedAt (k s lo len : Nat) : OperandFormat :=
  { form := .signMagnitude, sign := .bit k s, bits := bitsFrom k lo len }

/-- A coordinate: unsigned on the VT11, sign-magnitude on the VS60 (R63, R66). -/
def coordAt (v : Variant) (k : Nat) : OperandFormat :=
  match v with
  | .vt11 => unsignedAt k 0 10
  | .vs60 => signedAt k 13 0 10

/-- An item of one operand a word, its intensify bit bit 14 of the first: `n` words without and `nz` with Z (R51,
R65). -/
def wordItem (n nz : Nat) (o : Nat → OperandFormat) : ItemFormat :=
  { words := n, wordsZ := nz, lit := .bit 0 14, operands := (List.range n).map o, operandsZ := (List.range nz).map o }

/-- A one-word item of two operands. -/
def pairItemFormat (lit : BitRef) (x y : OperandFormat) : ItemFormat :=
  { words := 1, wordsZ := 1, lit := lit, operands := [x, y], operandsZ := [x, y] }

/-- The tables of 30_encoding.md as a replaceable table: what `decode` and the formats above read, as data to correct
(R5, R9, D1). -/
def specTable (v : Variant) : EncTable :=
  { rows := specRows v
    svect := pairItemFormat (.bit 0 14) (signedAt 0 13 7 6) (signedAt 0 6 0 6)
    lvect := wordItem 2 3 fun k => signedAt k 13 0 10
    point := wordItem 2 3 (coordAt v)
    offset := wordItem 2 3 fun k => signedAt k 13 0 10
    graphx := wordItem 1 1 (coordAt v)
    graphy := wordItem 1 1 (coordAt v)
    relpoint := pairItemFormat (.bit 0 14) (signedAt 0 13 7 6) (signedAt 0 6 0 6)
    bsvect := pairItemFormat (.bit 0 6) (signedAt 0 5 3 2) (signedAt 0 2 0 2)
    circle := wordItem 4 6 fun k => signedAt k 13 0 10
    absvec := wordItem 2 3 (coordAt v)
    off := .bit 0 12
    char0 := bitsFrom 0 0 7
    char1 := bitsFrom 0 8 7
    bsvect0 := bitsFrom 0 0 7
    bsvect1 := bitsFrom 0 7 7 }

/-- Why bytes do not decode: there are fewer than the two bytes of a word. -/
inductive DecodeError where
  | truncated
deriving DecidableEq, Repr

/-- A word from its two bytes, the low byte at the lower address. PRESUMED (log 2): the PDP-11 byte order (R39, G21). -/
def wordOfBytes (lo hi : Byte) : Word := hi ++ lo

/-- The low byte of a word, stored at the even address (R39; log 2). -/
def lowByte (w : Word) : Byte := w.extractLsb' 0 8

/-- The high byte of a word, stored at the odd address (R39; log 2). -/
def highByte (w : Word) : Byte := w.extractLsb' 8 8

/-- The decoder on bytes: the instruction of the first word and the bytes left. -/
def decodeBytes (ctx : DecodeCtx) : List Byte → Except DecodeError (Instr × List Byte)
  | lo :: hi :: rest => .ok (decode ctx (wordOfBytes lo hi), rest)
  | _ => .error .truncated

/-- The word of an instruction (30_encoding.md R52 to R64). -/
def encode (i : Instr) : Word :=
  match i with
  | .sgmChar f => f.toWord 0b10000
  | .sgmSvect f => f.toWord 0b10001
  | .sgmLvect f => f.toWord 0b10010
  | .sgmPoint f => f.toWord 0b10011
  | .sgmGraphx f => f.toWord 0b10100
  | .sgmGraphy f => f.toWord 0b10101
  | .sgmRelpoint f => f.toWord 0b10110
  | .sgmBsvect f => f.toWord 0b10111
  | .sgmCircle f => f.toWord 0b11000
  | .sgmAbsvec f => f.toWord 0b11001
  | .ldnr name => put 11 0b11010#5 ||| put 0 (BitVec.ofNat 11 name)
  | .lsrc f => f.toWord
  | .djmpAbs x => put 9 0b1110000#7 ||| put 0 x
  | .djmpAbsVt11 x => put 11 0b11100#5 ||| put 0 x
  | .djmpRel d => put 9 0b1110001#7 ||| put 0 (BitVec.ofInt 9 d)
  | .djsrAbs x => put 9 0b1110010#7 ||| put 0 x
  | .djsrRel d => put 9 0b1110011#7 ||| put 0 (BitVec.ofInt 9 d)
  | .dnop x => put 8 0b11101000#8 ||| put 0 x
  | .dnopVt11 x => put 11 0b11101#5 ||| put 0 x
  | .dpopNr x => put 8 0b11101001#8 ||| put 0 x
  | .dpopR x => put 8 0b11101010#8 ||| put 0 x
  | .ldscope f => f.toWord
  | .lassoc x => put 8 0b11101100#8 ||| put 0 x
  | .illegalSub5 x => put 8 0b11101101#8 ||| put 0 x
  | .illegalSub6 x => put 8 0b11101110#8 ||| put 0 x
  | .illegalSub7 x => put 8 0b11101111#8 ||| put 0 x
  | .illegalOp7 x => put 11 0b10111#5 ||| put 0 x
  | .illegalOp8 x => put 11 0b11000#5 ||| put 0 x
  | .illegalOp9 x => put 11 0b11001#5 ||| put 0 x
  | .illegalOp10 x => put 11 0b11010#5 ||| put 0 x
  | .illegalOp11 x => put 11 0b11011#5 ||| put 0 x
  | .lsra f => f.toWord
  | .lsrb f => f.toWord false
  | .lsrbVt11 b f => f.toWord b
  | .lsrbb f => f.toWord
  | .dstop => dstopFields.toWord
  | .charData f => f.toWord
  | .svectData f => f.toWord
  | .lvectData f => f.toWord
  | .pointData f => f.toWord
  | .offsetData f => f.toWord
  | .graphxData f => f.toWord
  | .graphyData f => f.toWord
  | .relpointData f => f.toWord
  | .bsvectData f => f.toWord
  | .circleData f => f.toWord
  | .absvecData f => f.toWord

/-- The bytes of an instruction as the host stores them. -/
def encodeBytes (i : Instr) : List Byte := [lowByte (encode i), highByte (encode i)]

/-- The context a table word is read in: that of the reset state (VS60, mode CHAR, no item begun). -/
def tableCtx : DecodeCtx := { variant := .vs60, mode := .char, word0Off := none }

/-- The first word of a table row's bits, the bits above `nbits` zero. -/
def tableWord0 (nbits w : Nat) : Word := BitVec.ofNat 16 (w % 2 ^ nbits)

/-- The second word of a table row's bits, the bits above `nbits` zero: the operand word of a two-word instruction. -/
def tableWord1 (nbits w : Nat) : Word := BitVec.ofNat 16 (w % 2 ^ nbits / 65536)

/-- The instruction the decoder reads from a table row's bits laid out in memory order. -/
def decodeTableWord (nbits w : Nat) : Option Instr :=
  let w0 := tableWord0 nbits w
  let w1 := tableWord1 nbits w
  match decodeBytes tableCtx [lowByte w0, highByte w0, lowByte w1, highByte w1] with
  | .ok (i, _) => some i
  | .error _ => none

end Sys2Proof
end

