-- ==== Sys2Proof/Machine/Operands.lean ====
section
/-! DEFINITION. How operands are formed from their fields (30_encoding.md R66), item lengths (R51), the scaling of
relative deltas (R107), displayed coordinates (R22), addresses and names of parametric width (R9), jump targets (R93,
R94), and the decoding context a state gives. Fields are read by the formats of `Sys2Proof/Decode.lean`. -/

namespace Sys2Proof.Machine

/-- Sign-magnitude value: negative zero is 0 (R11). -/
def smag {n : Nat} (neg : Bool) (m : BitVec n) : Int := if neg then -(m.toNat : Int) else m.toNat

/-- Whether the configured variant is the VS60 (R9). -/
def isVs60 (s : State) : Bool := s.cfg.variant == .vs60

/-- Whether the display file's items carry Z words (R51). -/
def zWords (s : State) : Bool := isVs60 s && s.P.fileZ

/-- The length of a mode's data item in words, without and with Z words, under the spec's own encoding (R51). -/
def itemLen (m : Mode) (z : Bool) : Nat :=
  match m with
  | .char | .svect | .graphx | .graphy | .relpoint | .bsvect => 1
  | .lvect | .point | .absvec => if z then 3 else 2
  | .circle => if z then 6 else 4

/-- A relative delta scaled by the vector-scale register: `tdiv(d·vscale, 4)` on VS60, `d` on VT11 (R107). -/
def scaled (s : State) (d : Int) : Int :=
  match s.cfg.variant with
  | .vt11 => d
  | .vs60 => Int.tdiv (d * (s.P.vscale.toNat : Int)) 4

/-- The signed value of a delta word (R62, R66). -/
def deltaOf (w : Word) : Int := smag (DeltaFields.ofWord w).s (DeltaFields.ofWord w).m

/-- The signed value of a word of an OFFSET item (R63, R66). -/
def offsetOf (w : Word) : Int := smag (CoordFields.ofWord w).s (CoordFields.ofWord w).m

/-- The absolute coordinate of a coordinate word: unsigned on VT11, sign-magnitude on VS60 (R63, R66, R118 `Coord`). -/
def coordOf (s : State) (w : Word) : Int :=
  match s.cfg.variant with
  | .vt11 => ((CoordFields.ofWord w).m.toNat : Int)
  | .vs60 => smag (CoordFields.ofWord w).s (CoordFields.ofWord w).m

/-- Whether an item's first word makes it an OFFSET item: in POINT mode on the VS60, its OFFSET bit (R63, R118). -/
def isOffsetItem (s : State) (m : Mode) (ws : List Word) : Bool :=
  m == .point && isVs60 s && firstIsOffset s.cfg.encoding (wordAt ws 0)

/-- Operand `k` of an item of the spec's own formats, counted in the order of R65 (R61 to R66). -/
def specOperand (s : State) (m : Mode) (ws : List Word) (k : Nat) : Int :=
  match m with
  | .char => 0
  | .svect | .relpoint =>
    let f := SvFields.ofWord (wordAt ws 0)
    if k = 0 then smag f.sx f.dx else smag f.sy f.dy
  | .bsvect =>
    let f := BsvItemFields.ofItem ((wordAt ws 0).setWidth 7)
    if k = 0 then smag f.sx f.dx else smag f.sy f.dy
  | .lvect | .circle => deltaOf (wordAt ws k)
  | .point => if isOffsetItem s m ws then offsetOf (wordAt ws k) else coordOf s (wordAt ws k)
  | .graphx | .graphy | .absvec => coordOf s (wordAt ws k)

/-- The intensify bit of an item of the spec's own formats, in its first word (R61 to R64). -/
def specLit (m : Mode) (ws : List Word) : Bool :=
  match m with
  | .char => true
  | .svect | .relpoint => (SvFields.ofWord (wordAt ws 0)).i
  | .bsvect => (BsvItemFields.ofItem ((wordAt ws 0).setWidth 7)).i
  | .lvect | .circle => (DeltaFields.ofWord (wordAt ws 0)).i
  | .point | .graphx | .graphy | .absvec => (CoordFields.ofWord (wordAt ws 0)).i

/-- The number of words of an item of which `ws` have come, under the parameter `encoding` (R5, R51). -/
def itemWords (s : State) (m : Mode) (ws : List Word) : Nat :=
  match s.cfg.encoding with
  | .spec => itemLen m (zWords s)
  | .table t => (t.item m (isOffsetItem s m ws)).length (zWords s)

/-- Operand `k` of an item, counted in the order of R65, under the parameter `encoding` (R5, R66). -/
def itemOperand (s : State) (m : Mode) (ws : List Word) (k : Nat) : Int :=
  match s.cfg.encoding with
  | .spec => specOperand s m ws k
  | .table t => (t.item m (isOffsetItem s m ws)).operand (zWords s) k ws

/-- The intensify bit of an item, under the parameter `encoding` (R5, R61 to R64). -/
def itemLit (s : State) (m : Mode) (ws : List Word) : Bool :=
  match s.cfg.encoding with
  | .spec => specLit m ws
  | .table t => refBit ws (t.item m (isOffsetItem s m ws)).lit

/-- Coordinatewise sum. -/
def addPt (a b : Pt3) : Pt3 := ⟨a.x + b.x, a.y + b.y, a.z + b.z⟩

/-- The displayed coordinates of a normalized position: `pos + off` per axis, Z 0 on VT11 (R22, R113). -/
def displayed (s : State) (p : Pt3) : Pt3 :=
  ⟨p.x + s.off.x, p.y + s.off.y, if isVs60 s then p.z + s.off.z else 0⟩

/-- The size of the display file's address space, `2^ADDR_BITS` bytes (R9, R35). -/
def addrSpace (c : Params) : Nat := 2 ^ c.addrBits

/-- A value as an address, modulo the address space (R43). -/
def wrapAddr (c : Params) (v : Int) : Nat := (v % (addrSpace c : Int)).toNat

/-- The address a 16-bit word names, bit 0 cleared (R40). -/
def evenAddr (c : Params) (v : Word) : Nat := wrapAddr c ((v &&& 0xFFFE).toNat : Int)

/-- The target of an absolute jump or call: the operand's address, bit 0 cleared, plus the relocation, modulo the
address space, so that where `ADDR_BITS` exceeds 16 the upper address bits come from the relocation only (R44, R59,
R93, R95). -/
def absTarget (s : State) (a : Nat) : Nat := wrapAddr s.cfg (((a / 2 * 2 : Nat) : Int) + (s.regs.reloc : Int))

/-- The target of a relative jump or call: `dpc + 2·DISP`, `dpc` already past the instruction (R94, R96). -/
def relTarget (s : State) (disp : Int) : Nat := wrapAddr s.cfg ((s.dpc : Int) + 2 * disp)

/-- A name in a name register of `NAME_BITS` (R9, R56, R59; log 1). -/
def nameOf (c : Params) (v : Nat) : Nat := v % 2 ^ c.nameBits

/-- LSRA's sync rate code: on VT11 bit 3 of the word reads as 0; a replaced encoding gives the code as it is (R53,
R89). -/
def syncCode (s : State) (sync : BitVec 2) : BitVec 2 :=
  match s.cfg.encoding with
  | .spec => if isVs60 s then sync else sync &&& 1
  | .table _ => sync

/-- The line type of a two-bit code (R23). -/
def lineTypeOf (lt : BitVec 2) : LineType :=
  match lt.toNat with
  | 0 => .solid
  | 1 => .longDash
  | 2 => .shortDash
  | _ => .dotDash

/-- The two-bit code of a line type (R23). -/
def lineTypeCode (t : LineType) : BitVec 2 :=
  match t with
  | .solid => 0
  | .longDash => 1
  | .shortDash => 2
  | .dotDash => 3

/-- The code of a mode, which is SGM's MODE field (R23). -/
def modeCode (m : Mode) : BitVec 4 :=
  match m with
  | .char => 0
  | .svect => 1
  | .lvect => 2
  | .point => 3
  | .graphx => 4
  | .graphy => 5
  | .relpoint => 6
  | .bsvect => 7
  | .circle => 8
  | .absvec => 9

/-- The decoding context of a state (R68): the variant, the mode, and the OFFSET bit of the first word of the item
begun. -/
def decodeCtx (s : State) : DecodeCtx :=
  { variant := s.cfg.variant, mode := s.P.mode, word0Off := s.acc.head?.map (firstIsOffset s.cfg.encoding) }

end Sys2Proof.Machine
end

