-- ==== Sys2Proof/Machine/Sparse.lean ====
section
/-! DEFINITION. Sparse data by a natural-number key in one canonical form: keys strictly rising, no entry equal to the
value `d` of an unlisted key. The host's memory and the phosphor grid are held so. -/

namespace Sys2Proof.Machine

/-- The value at key `a`, `d` where none is listed. -/
def sparseGet {α : Type} (d : α) : List (Nat × α) → Nat → α
  | [], _ => d
  | (k, v) :: t, a => if a = k then v else sparseGet d t a

/-- The list with the value at key `a` made `v`; a value equal to `d` is not listed. -/
def sparseSet {α : Type} [DecidableEq α] (d : α) (a : Nat) (v : α) : List (Nat × α) → List (Nat × α)
  | [] => if v = d then [] else [(a, v)]
  | (k, x) :: t =>
    if a < k then (if v = d then (k, x) :: t else (a, v) :: (k, x) :: t)
    else if a = k then (if v = d then t else (a, v) :: t)
    else (k, x) :: sparseSet d a v t

/-- The canonical form: keys strictly rising and below `bound`, no listed value equal to `d`. -/
def sparseWf {α : Type} [DecidableEq α] (d : α) (bound : Nat) (l : List (Nat × α)) : Bool :=
  decide (l.Pairwise fun p q => p.1 < q.1) && l.all fun p => decide (p.1 < bound) && decide (p.2 ≠ d)

end Sys2Proof.Machine
end

