-- ==== Sys2Proof/Machine/Phosphor.lean ====
section
/-! DEFINITION. The phosphor engine (45_phosphor.md): `Init`, `Illuminate` with the light-pen test, `Age` and frame
sync. A divisor in this file is never negative, so `/` on integers rounds toward minus infinity as `fdiv` does (R11). -/

namespace Sys2Proof.Machine

/-- A dark cell never lit (R30, R147). -/
def darkCell : Cell := { level := 0, ttl := 0, color := 0, next := 0 }

/-- The grid's width `W` in cells (R147). -/
def gridWidth (p : Phosphor) : Nat := p.profile.xres / p.scale

/-- The grid's height `H` in cells (R147). -/
def gridHeight (p : Phosphor) : Nat := p.profile.yres / p.scale

/-- The number that names cell `(cx, cy)`. -/
def cellKey (p : Phosphor) (cx cy : Nat) : Nat := cy * gridWidth p + cx

/-- The cell of a number. -/
def cellAt (p : Phosphor) (k : Nat) : Cell := sparseGet darkCell p.cells k

/-- Record a call on a collaborator (R73). -/
def call (o : OutCall) (s : State) : State := { s with out := o :: s.out }

/-- The intensity a lit cell takes: the given one, or one above its old level under the brightening rule (R148). -/
def litLevel (c : Params) (maxTtl : Nat) (e : Cell) (i : BitVec 3) (color : BitVec 1) : BitVec 3 :=
  if c.brighten ∧ 0 < e.ttl ∧ maxTtl - 1 ≤ e.ttl ∧ e.level.toNat ≤ i.toNat ∧ color = e.color then
    BitVec.ofNat 3 (min 7 (max i.toNat (e.level.toNat + 1)))
  else i

/-- `LpTest(x, y)`: whether the point lies within the light-pen radius of the last pen position (R149). -/
def lpTest (s : State) (x y : Int) : Bool :=
  decide (0 < s.cfg.lpRadius)
    && decide ((x - s.ph.penX) * (x - s.ph.penX) + (y - s.ph.penY) * (y - s.ph.penY)
      ≤ (s.cfg.lpRadius : Int) * (s.cfg.lpRadius : Int))

/-- Whether a raster point falls on the grid (R148). -/
def onGrid (p : Phosphor) (x y : Int) : Bool :=
  decide (0 ≤ x / (p.scale : Int)) && decide (x / (p.scale : Int) < (gridWidth p : Int))
    && decide (0 ≤ y / (p.scale : Int)) && decide (y / (p.scale : Int) < (gridHeight p : Int))

/-- The number of the cell of a raster point on the grid (R148). -/
def pointKey (p : Phosphor) (x y : Int) : Nat := cellKey p (x / (p.scale : Int)).toNat (y / (p.scale : Int)).toNat

/-- What a cell becomes when lit (R148). -/
def litCell (c : Params) (p : Phosphor) (e : Cell) (i : BitVec 3) (color : BitVec 1) : Cell :=
  { level := litLevel c p.profile.maxTtl e i color, ttl := p.profile.maxTtl, color := color,
    next := p.clock + p.profile.stepTicks }

/-- The engine after cell `k` is lit: unlinked where it was lit, then queued at the tail (R148). -/
def lightCell (c : Params) (p : Phosphor) (k : Nat) (i : BitVec 3) (color : BitVec 1) : Phosphor :=
  { p with cells := sparseSet darkCell k (litCell c p (cellAt p k) i color) p.cells
           queue := (if 0 < (cellAt p k).ttl then p.queue.erase k else p.queue) ++ [k] }

/-- The colour handle of a cell lit at `level` in `color` after `k` decay steps: the profile's decay table's, else the
triple. DESIGN CHOICE (log 28): a table's entry may give `Off`, on which R146 is silent. -/
def decayColor (p : Profile) (level : BitVec 3) (k : Nat) (color : BitVec 1) : PixelColor :=
  match p.decay.find? fun e => e.level == level && e.k == k && e.color == color with
  | some e =>
    match e.handle with
    | some n => .handle n
    | none => .off
  | none => .lit level k color

/-- `Illuminate(x, y, i, c)`: the state with the point's cell lit, and whether the light pen is hit; a point off the
grid has no effect and no hit (R148). -/
def illuminate (x y : Int) (i : BitVec 3) (color : BitVec 1) (s : State) : State × Bool :=
  if onGrid s.ph x y then
    let k := pointKey s.ph x y
    let lvl := litLevel s.cfg s.ph.profile.maxTtl (cellAt s.ph k) i color
    (call (.setPixel (x / (s.ph.scale : Int)).toNat (y / (s.ph.scale : Int)).toNat
        (decayColor s.ph.profile lvl 0 color))
      { s with ph := lightCell s.cfg s.ph k i color }, lpTest s x y)
  else (s, false)

/-- What the head of the queue becomes by one decay step; its level and colour stay (R150). -/
def decayCell (p : Phosphor) (e : Cell) : Cell :=
  if e.ttl - 1 = 0 then { e with ttl := 0 }
  else { e with ttl := e.ttl - 1, next := e.next + p.profile.stepTicks }

/-- The colour shown after a decay step that leaves the cell `e` (R150). -/
def decayedColor (p : Phosphor) (e : Cell) : PixelColor :=
  if e.ttl = 0 then .off else decayColor p.profile e.level (p.profile.maxTtl - e.ttl) e.color

/-- One decay step of the queue's head `k`, `rest` the queue behind it (R150). -/
def decayStep (k : Nat) (rest : List Nat) (s : State) : State :=
  let e := decayCell s.ph (cellAt s.ph k)
  call (.setPixel (k % gridWidth s.ph) (k / gridWidth s.ph) (decayedColor s.ph e))
    { s with ph := { s.ph with cells := sparseSet darkCell k e s.ph.cells
                               queue := if e.ttl = 0 then rest else rest ++ [k] } }

/-- The loop of `Age`, at most `fuel` decay steps (R150). -/
def decayLoop : Nat → State → State
  | 0, s => s
  | fuel + 1, s =>
    match s.ph.queue with
    | [] => s
    | k :: rest => if (cellAt s.ph k).next ≤ s.ph.clock then decayLoop fuel (decayStep k rest s) else s

/-- Enough fuel: every decay step lowers this sum over the queue. -/
def decayFuel (p : Phosphor) : Nat := (p.queue.map fun k => (cellAt p k).ttl + 1).sum

/-- The frame-sync period of a rate code (R153). -/
def syncPeriod (c : Params) (p : Profile) (rate : BitVec 2) : Nat :=
  match c.syncPeriods with
  | .refresh => p.refreshTicks
  | .table p1 p2 p3 =>
    match rate.toNat with
    | 1 => p1
    | 2 => p2
    | _ => p3

/-- `FrameTarget(t, r)`: the next frame boundary after `t`, a free value where the period is 0 (R153; log 29). -/
def frameTarget (c : Params) (p : Profile) (t : Nat) (rate : BitVec 2) : Nat :=
  if syncPeriod c p rate = 0 then Config.noBoundary t
  else (t / syncPeriod c p rate + 1) * syncPeriod c p rate

/-- `FrameSync()`: a wait for frame sync ends at its target (R153). -/
def frameSync (s : State) : State :=
  if s.run = .awaitSync ∧ s.syncTarget ≤ s.ph.clock then { s with run := .running } else s

/-- `Age(elapsed)`: the clock advances, every due decay step is taken, frame sync is tested, the video layer flushed
(R150). -/
def age (elapsed : Nat) (s : State) : State :=
  let s := { s with ph := { s.ph with clock := s.ph.clock + elapsed } }
  call .flush (frameSync (decayLoop (decayFuel s.ph) s))

/-- `Init(type, scale)` fails: the engine is left uninitialized and the host told (R147). -/
def initFail (e : InitErrorKind) (s : State) : State :=
  call (.initError e) { s with ph := { s.ph with ready := false } }

/-- `Init(type, scale)` (R147), the type named by the profile's number. -/
def initEngine (name scale : Nat) (s : State) : State :=
  match s.cfg.profiles.find? fun p => p.name == name with
  | none => initFail .unknownType s
  | some p =>
    if scale < 1 then initFail .badScale s
    else if p.refreshTicks < 1 ∨ s.cfg.tickMax < p.refreshTicks then initFail .badInterval s
    else call (.videoInit p scale) { s with ph := initPhosphor p scale }

end Sys2Proof.Machine
end

