-- ==== Sys2Proof/Machine/Ops.lean ====
section
/-! DEFINITION. The shared operations: host memory (20_memory.md), raising and taking an interrupt (60_exceptions.md),
drawing a pixel run up to a light-pen hit (R111), the parameter stack (R97, R98), and START, RESUME and ExtStop, the
host's ways into and out of the wait states (R81 to R84). -/

namespace Sys2Proof.Machine

/-- What a byte no host operation has stored reads as. DESIGN CHOICE (log 2): 0. -/
def unlistedByte : Byte := 0

/-- The byte at an address. -/
def readByte (m : Memory) (a : Nat) : Byte := sparseGet unlistedByte m a

/-- Memory with a byte stored. -/
def writeByte (m : Memory) (a : Nat) (b : Byte) : Memory := sparseSet unlistedByte a b m

/-- The canonical form of memory, every address within the address space. -/
def Memory.wf (c : Params) (m : Memory) : Bool := sparseWf unlistedByte (addrSpace c) m

/-- The address of a word's second byte (R39, R43). -/
def nextByte (c : Params) (a : Nat) : Nat := wrapAddr c ((a : Int) + 1)

/-- `MemRead(addr, 2)`: the word the host holds at an address, the low byte first (R36, R39, R41). -/
def fetchWord (c : Params) (m : Memory) (a : Nat) : Word := wordOfBytes (readByte m a) (readByte m (nextByte c a))

/-- The host stores a word of the display file, the low byte first (R39, R46). -/
def storeWord (c : Params) (m : Memory) (a : Nat) (w : Word) : Memory :=
  writeByte (writeByte m a (lowByte w)) (nextByte c a) (highByte w)

/-- Whether a reason is latched (R28). -/
def pendGet (p : Pend) (r : Reason) : Bool :=
  match r with
  | .lightPenHit => p.lightPenHit
  | .edgeTransition => p.edgeTransition
  | .internalStop => p.internalStop
  | .externalStop => p.externalStop
  | .charFault => p.charFault
  | .stackFault => p.stackFault
  | .busTimeout => p.busTimeout
  | .nameMatch => p.nameMatch

/-- The set of requests with one reason's membership made `b` (R28). -/
def pendSet (p : Pend) (r : Reason) (b : Bool) : Pend :=
  match r with
  | .lightPenHit => { p with lightPenHit := b }
  | .edgeTransition => { p with edgeTransition := b }
  | .internalStop => { p with internalStop := b }
  | .externalStop => { p with externalStop := b }
  | .charFault => { p with charFault := b }
  | .stackFault => { p with stackFault := b }
  | .busTimeout => { p with busTimeout := b }
  | .nameMatch => { p with nameMatch := b }

/-- `raise R`: latch the request; the run state does not change (R155). -/
def raise (r : Reason) (s : State) : State := { s with pend := pendSet s.pend r true }

/-- The priority order, highest first (R156). -/
def priorityOrder : List Reason :=
  [.lightPenHit, .edgeTransition, .internalStop, .externalStop, .charFault, .stackFault, .busTimeout, .nameMatch]

/-- The highest latched request (R157). -/
def highest (p : Pend) : Option Reason := priorityOrder.find? fun r => pendGet p r

/-- The notification class of a reason (R158). -/
def notifyClass (r : Reason) : NotifyClass :=
  match r with
  | .lightPenHit => .surface
  | .edgeTransition => .surface
  | .internalStop => .stop
  | .externalStop => .stop
  | .charFault => .charFault
  | .stackFault => .charFault
  | .busTimeout => .charFault
  | .nameMatch => .name

/-- Whether entering the wait for a reason is silent: a stop with the stop interrupt disabled (R157). -/
def silentStop (r : Reason) (s : State) : Bool := (r == .internalStop || r == .externalStop) && !s.regs.stopIntrEna

/-- TAKING AN INTERRUPT: the entry into `AwaitResume(r)`. It removes the request, changes the run state and notifies
the host once; it saves nothing and changes no mode (R157, R158, R159). -/
def takeInterrupt (r : Reason) (s : State) : State :=
  let s := { s with pend := pendSet s.pend r false, run := .awaitResume r }
  if silentStop r s then s else call (.notify (notifyClass r)) s

/-- `Check()`: the highest latched request, if any, is taken (R157). -/
def check (s : State) : State :=
  match highest s.pend with
  | none => s
  | some r => takeInterrupt r s

/-- `EdgeEvent(q, isExit)` (R112). -/
def edgeEvent (q : Pt3) (isExit : Bool) (s : State) : State :=
  raise .edgeTransition { s with flags := edgeFlags isExit s.flags, rpt := q }

/-- A light-pen hit acted on at a displayed point (R111, R142). -/
def lightPenHit (q : Pt3) (s : State) : State :=
  raise .lightPenHit { s with flags := { s.flags with lpFlag := true }, rpt := q }

/-- `DrawPrimitiveRun(run, exit, masked)`: light the pixels in order, stop at the first hit acted on and keep the rest
in `lpCont`, else end with the exit edge event (R111). -/
def drawRun (exit : Option Pt3) (masked : Bool) : List Pixel → State → State
  | [], s =>
    match exit with
    | none => s
    | some q => edgeEvent q true s
  | p :: rest, s =>
    let r := illuminate p.x p.y p.i p.c s
    if r.2 && !masked && r.1.P.lpIntrEna then
      { lightPenHit ⟨p.x, p.y, p.z⟩ r.1 with lpCont := some ⟨rest, exit⟩ }
    else drawRun exit masked rest r.1

/-- A stack fault's request, where enabled (R97, R98). -/
def raiseStackFault (s : State) : State := if s.regs.stackIntrEna then raise .stackFault s else s

/-- `Push(ret)`: whether it succeeded, and the state; on a full stack only the flag and the request change (R97). -/
def push (ret : Nat) (s : State) : State × Bool :=
  if h : s.sp.val = 0 then
    (raiseStackFault { s with flags := { s.flags with stackOver := true } }, false)
  else
    ({ s with sp := ⟨s.sp.val - 1, by omega⟩
              stk := s.stk.set (s.sp.val - 1) { dpc := ret, name := s.regs.name, P := s.P } (by omega) }, true)

/-- `Pop(restore)`: on an empty stack only the flag and the request change (R98). -/
def pop (restore : Bool) (s : State) : State :=
  if h : s.sp.val < 8 then
    let f := s.stk[s.sp.val]
    let s := { s with sp := ⟨s.sp.val + 1, by omega⟩, dpc := f.dpc }
    if restore then { s with regs := { s.regs with name := f.name }, P := f.P, acc := [] } else s
  else raiseStackFault { s with flags := { s.flags with stackUnder := true } }

/-- `START(v)`: from any run state, load the DPC, clear the flags and requests, discard every continuation (R82). -/
def start (v : Word) (s : State) : State :=
  { s with dpc := evenAddr s.cfg v, flags := startFlags s.flags, pend := noPend, clipPend := none, lpCont := none,
           pendHalf := none, acc := [], ctlPend := none, syncTarget := 0, run := .running }

/-- The light-pen remainder drawn by a RESUME, the pen masked (R83). -/
def drawRemainder (s : State) : State :=
  match s.lpCont with
  | none => s
  | some c => drawRun c.exit true c.run { s with lpCont := none }

/-- `RESUME()`, the return from an interrupt: clear the stop flags, and in `AwaitResume(r)` the flags of `r`, draw the
light-pen remainder and run (R83, R160). -/
def resume (s : State) : State :=
  let s := { s with flags := clearStops s.flags }
  match s.run with
  | .awaitResume r => { drawRemainder { s with flags := clearReason r s.flags } with run := .running }
  | _ => s

/-- `SetDPC(v)`: START where bit 0 is clear, RESUME where it is set (R81). -/
def setDpc (v : Word) (s : State) : State := if bit v 0 then resume s else start v s

/-- `ExtStop()`: latched in `Running`, `AwaitSync` and `AwaitResume`, no effect in `Halted` and `Hung` (R84). -/
def extStop (s : State) : State :=
  match s.run with
  | .halted => s
  | .hung => s
  | _ => raise .externalStop { s with flags := { s.flags with extStopFlag := true } }

end Sys2Proof.Machine
end

