-- ==== Sys2Proof/Machine/Control.lean ====
section
/-! DEFINITION. The meanings of the control instructions (41_control.md), one definition per row of the opcode table,
and the operand words of the two-word instructions. A meaning runs after the fetch has moved the DPC past the word
(R77); it changes nothing but what it writes (R87). -/

namespace Sys2Proof.Machine

/-- The loads of SGM into the parameter set, each under its load bit (R88). -/
def sgmLoads (m : Mode) (f : SgmFields) (p : ParamSet) : ParamSet :=
  { p with mode := m
           intensity := if f.li then f.int else p.intensity
           lpIntrEna := if f.llp then f.lp else p.lpIntrEna
           blinkEna := if f.lbl then f.bl else p.blinkEna
           lineType := if f.llt then lineTypeOf f.lt else p.lineType }

/-- SGM: load the mode and the fields selected, restart the data item (R88). -/
def setGraphicMode (m : Mode) (f : SgmFields) (s : State) : State := { s with P := sgmLoads m f s.P, acc := [] }

/-- SGM CHAR (R88). -/
def execSgmChar (f : SgmFields) (s : State) : Result := .next (setGraphicMode .char f s)

/-- SGM SVECT (R88). -/
def execSgmSvect (f : SgmFields) (s : State) : Result := .next (setGraphicMode .svect f s)

/-- SGM LVECT (R88). -/
def execSgmLvect (f : SgmFields) (s : State) : Result := .next (setGraphicMode .lvect f s)

/-- SGM POINT (R88). -/
def execSgmPoint (f : SgmFields) (s : State) : Result := .next (setGraphicMode .point f s)

/-- SGM GRAPHX (R88). -/
def execSgmGraphx (f : SgmFields) (s : State) : Result := .next (setGraphicMode .graphx f s)

/-- SGM GRAPHY (R88). -/
def execSgmGraphy (f : SgmFields) (s : State) : Result := .next (setGraphicMode .graphy f s)

/-- SGM RELPOINT (R88). -/
def execSgmRelpoint (f : SgmFields) (s : State) : Result := .next (setGraphicMode .relpoint f s)

/-- SGM BSVECT, VS60 (R88). -/
def execSgmBsvect (f : SgmFields) (s : State) : Result := .next (setGraphicMode .bsvect f s)

/-- SGM CIRCLE, VS60 (R88). -/
def execSgmCircle (f : SgmFields) (s : State) : Result := .next (setGraphicMode .circle f s)

/-- SGM ABSVEC, VS60 (R88). -/
def execSgmAbsvec (f : SgmFields) (s : State) : Result := .next (setGraphicMode .absvec f s)

/-- LSRA's loads, which come before STOP and SYNC; the menu flag is VS60's (R89). -/
def lsraLoads (f : LsraFields) (s : State) : State :=
  { s with
    regs := { s.regs with stopIntrEna := if f.lsi then f.si else s.regs.stopIntrEna
                          menu := if isVs60 s && f.lmn then f.mn else s.regs.menu
                          syncRate := syncCode s f.sync }
    P := { s.P with lpIntensify := if f.llpi then f.lpi else s.P.lpIntensify
                    italics := if f.lit then f.it else s.P.italics } }

/-- LSRA: the loads, then STOP, which wins over the wait for frame sync (R89). -/
def loadStatusA (f : LsraFields) (s : State) : State :=
  let t := lsraLoads f s
  if f.stop then raise .internalStop { t with flags := { t.flags with stopFlag := true } }
  else if syncCode s f.sync = 0 then t
  else { t with syncTarget := frameTarget t.cfg t.ph.profile t.ph.clock (syncCode s f.sync), run := .awaitSync }

/-- LSRA (R89). -/
def execLsra (f : LsraFields) (s : State) : Result := .next (loadStatusA f s)

/-- DSTOP: LSRA with STOP, and the stop interrupt enabled (R72, R89). -/
def execDstop (s : State) : Result := .next (loadStatusA dstopFields s)

/-- LSRB: the graphplot increment, under its load bit (R90). -/
def loadStatusB (f : LsrbFields) (s : State) : State :=
  { s with regs := { s.regs with graphInc := if f.lgi then f.gi else s.regs.graphInc } }

/-- LSRB on the VS60 (R90). -/
def execLsrb (f : LsrbFields) (s : State) : Result := .next (loadStatusB f s)

/-- LSRB on the VT11, where bit 10 is ignored (R54, R90). -/
def execLsrbVt11 (_ignored : Bool) (f : LsrbFields) (s : State) : Result := .next (loadStatusB f s)

/-- LSRBB, VS60 (R91). -/
def execLsrbb (f : LsrbbFields) (s : State) : Result :=
  .next { s with
    P := { s.P with depthCue := if f.ldc then f.dc else s.P.depthCue
                    edgeIntrEna := if f.lei then f.ei else s.P.edgeIntrEna
                    fileZ := if f.lz then f.z else s.P.fileZ
                    charEsc := if f.les then f.es else s.P.charEsc }
    regs := { s.regs with nameIntrEna := if f.lni then f.ni else s.regs.nameIntrEna } }

/-- LSRC, VS60 (R92). -/
def execLsrc (f : LsrcFields) (s : State) : Result :=
  .next { s with
    P := { s.P with rotate := if f.lro then f.ro else s.P.rotate
                    csIndex := if f.lcs then f.cs else s.P.csIndex
                    vscale := if f.lvs then f.vs else s.P.vscale } }

/-- DJMP-ABS on the VS60: the next word is its operand (R87, R93). -/
def execDjmpAbs (_ignored : BitVec 9) (s : State) : Result := .next { s with ctlPend := some .djmpAbs }

/-- DJMP-ABS on the VT11, every word of its group (R57, R93). -/
def execDjmpAbsVt11 (_ignored : BitVec 11) (s : State) : Result := .next { s with ctlPend := some .djmpAbs }

/-- DJMP-REL, VS60 (R94). -/
def execDjmpRel (disp : Int) (s : State) : Result := .next { s with dpc := relTarget s disp }

/-- DJSR-ABS, VS60: the next word is its operand (R87, R95). -/
def execDjsrAbs (_ignored : BitVec 9) (s : State) : Result := .next { s with ctlPend := some .djsrAbs }

/-- A call: push the return address, and jump where the push succeeded (R95, R96). -/
def callSub (target : Nat) (s : State) : State :=
  let r := push s.dpc s
  if r.2 then { r.1 with dpc := target } else r.1

/-- DJSR-REL, VS60 (R96). -/
def execDjsrRel (disp : Int) (s : State) : Result := .next (callSub (relTarget s disp) s)

/-- DNOP on the VS60 (R104). -/
def execDnop (_ignored : BitVec 8) (s : State) : Result := .next s

/-- DNOP on the VT11, every word of its group (R58, R104). -/
def execDnopVt11 (_ignored : BitVec 11) (s : State) : Result := .next s

/-- DPOP-NR, VS60 (R99). -/
def execDpopNr (_ignored : BitVec 8) (s : State) : Result := .next (pop false s)

/-- DPOP-R, VS60 (R100). -/
def execDpopR (_ignored : BitVec 8) (s : State) : Result := .next (pop true s)

/-- LDNR, VS60: load the name and test it against the associative name (R101). -/
def execLdnr (name : Nat) (s : State) : Result :=
  let t := { s with regs := { s.regs with name := nameOf s.cfg name } }
  if s.regs.nameIntrEna ∧ nameOf s.cfg name = s.regs.assoc then
    .next (raise .nameMatch { t with flags := { t.flags with nameMatch := true } })
  else .next t

/-- LDSCOPE, VS60 (R102). -/
def execLdscope (f : LdscopeFields) (s : State) : Result :=
  .next { s with regs := { s.regs with cons0 := if f.lc0 then f.c0 else s.regs.cons0
                                       cons1 := if f.lc1 then f.c1 else s.regs.cons1 } }

/-- LASSOC, VS60: the next word is its operand (R87, R103). -/
def execLassoc (_ignored : BitVec 8) (s : State) : Result := .next { s with ctlPend := some .lassoc }

/-- The jump to an operand's address (R93). -/
def jumpAbs (a : Nat) (s : State) : State := { s with dpc := absTarget s a }

/-- The call of an operand's address (R95). -/
def callAbs (a : Nat) (s : State) : State := callSub (absTarget s a) s

/-- The load of the associative name (R103). -/
def loadAssoc (n : Nat) (s : State) : State := { s with regs := { s.regs with assoc := nameOf s.cfg n } }

/-- An unrecognized opcode hangs the processor at its word (R105). -/
def hang (s : State) : State := { s with dpc := wrapAddr s.cfg ((s.dpc : Int) - 2), run := .hung }

/-- Group 13, SUB 101, VS60: unrecognized (R67, R105). -/
def execIllegalSub5 (_ignored : BitVec 8) (s : State) : Result := .next (hang s)

/-- Group 13, SUB 110, VS60: unrecognized (R67, R105). -/
def execIllegalSub6 (_ignored : BitVec 8) (s : State) : Result := .next (hang s)

/-- Group 13, SUB 111, VS60: unrecognized (R67, R105). -/
def execIllegalSub7 (_ignored : BitVec 8) (s : State) : Result := .next (hang s)

/-- OP 0111, VT11: unrecognized (R67, R105). -/
def execIllegalOp7 (_ignored : BitVec 11) (s : State) : Result := .next (hang s)

/-- OP 1000, VT11: unrecognized (R67, R105). -/
def execIllegalOp8 (_ignored : BitVec 11) (s : State) : Result := .next (hang s)

/-- OP 1001, VT11: unrecognized (R67, R105). -/
def execIllegalOp9 (_ignored : BitVec 11) (s : State) : Result := .next (hang s)

/-- OP 1010, VT11: unrecognized (R67, R105). -/
def execIllegalOp10 (_ignored : BitVec 11) (s : State) : Result := .next (hang s)

/-- OP 1011, VT11: unrecognized (R67, R105). -/
def execIllegalOp11 (_ignored : BitVec 11) (s : State) : Result := .next (hang s)

end Sys2Proof.Machine
end

