-- ==== Sys2Proof/Machine/Geometry.lean ====
section
/-! DEFINITION. The geometry library on displayed coordinates: the viewport and its region codes (R127, R128), the
clipper (R129, R130), the line rasterizer (R132, R133) and the line-style patterns (R134). -/

namespace Sys2Proof.Machine

/-- The visible area of the display, `0..XEDGE` by `0..YEDGE` (R127). -/
def visibleArea (c : Params) : Viewport := { xMin := 0, xMax := c.xEdge, yMin := 0, yMax := c.yEdge }

/-- The viewport: the visible area, which the menu flag does not change by default (R126, R127). Under another
`menuEffect` the VS60's flag selects a rectangle of unknown bounds, a free value (I11; log 19). -/
def viewport (s : State) : Viewport :=
  match s.cfg.menuEffect with
  | .reference => visibleArea s.cfg
  | .other n => if s.cfg.variant = .vs60 ∧ s.regs.menu then Config.otherMenuViewport n else visibleArea s.cfg

/-- Whether a point lies in the closed viewport; Z is not clipped (R127). -/
def inViewport (v : Viewport) (p : Pt3) : Bool :=
  decide (v.xMin ≤ p.x) && decide (p.x ≤ v.xMax) && decide (v.yMin ≤ p.y) && decide (p.y ≤ v.yMax)

/-- The region code of a point: bit 0 left, bit 1 right, bit 2 below, bit 3 above (R128). -/
def regionCode (v : Viewport) (p : Pt3) : BitVec 4 :=
  (if p.x < v.xMin then 1 else 0) ||| (if v.xMax < p.x then 2 else 0) ||| (if p.y < v.yMin then 4 else 0)
    ||| (if v.yMax < p.y then 8 else 0)

/-- A visible clip result's tag; `Invisible` is the absence of a result (R129). -/
inductive ClipTag where
  | visibleUnclipped
  | clippedEntry
  | clippedExit
  | clippedBoth
deriving DecidableEq, Repr, Inhabited

/-- A visible clip result: the tag and the two end points of the visible part, in the order of traversal (R129). -/
structure Clipped where
  tag : ClipTag
  q0  : Pt3
  q1  : Pt3
deriving DecidableEq, Repr, Inhabited

/-- An exact parameter value `n/d` with `d > 0` (R130: exact rational arithmetic). -/
structure Frac where
  n : Int
  d : Int
deriving DecidableEq, Repr, Inhabited

/-- `a ≤ b` for positive denominators. -/
def fracLe (a b : Frac) : Bool := decide (a.n * b.d ≤ b.n * a.d)

/-- The larger of two parameters. -/
def fracMax (a b : Frac) : Frac := if fracLe a b then b else a

/-- The smaller of two parameters. -/
def fracMin (a b : Frac) : Frac := if fracLe a b then a else b

/-- One edge constraint `p·t ≤ q` applied to the interval `(tE, tL)`; none where it excludes every `t` (R130). -/
def clipConstraint (p q : Int) (t : Frac × Frac) : Option (Frac × Frac) :=
  if p < 0 then some (fracMax t.1 ⟨-q, -p⟩, t.2)
  else if 0 < p then some (t.1, fracMin t.2 ⟨q, p⟩)
  else if q < 0 then none
  else some t

/-- The parameters `(tE, tL)` of the visible part, none where the segment misses the viewport (R130 `Params`). -/
def clipParams (v : Viewport) (p0 p1 : Pt3) : Option (Frac × Frac) :=
  let dx := p1.x - p0.x
  let dy := p1.y - p0.y
  match (clipConstraint (-dx) (p0.x - v.xMin) (⟨0, 1⟩, ⟨1, 1⟩)).bind fun t =>
      (clipConstraint dx (v.xMax - p0.x) t).bind fun t =>
        (clipConstraint (-dy) (p0.y - v.yMin) t).bind fun t => clipConstraint dy (v.yMax - p0.y) t with
  | none => none
  | some t => if fracLe t.1 t.2 then some t else none

/-- The point at parameter `t`, each coordinate rounded toward `p0` (R130 `At`). -/
def clipAt (p0 p1 : Pt3) (t : Frac) : Pt3 :=
  ⟨p0.x + Int.tdiv (t.n * (p1.x - p0.x)) t.d, p0.y + Int.tdiv (t.n * (p1.y - p0.y)) t.d,
    p0.z + Int.tdiv (t.n * (p1.z - p0.z)) t.d⟩

/-- `Clip(p0, p1)` (R129), none for `Invisible`. -/
def clip (v : Viewport) (p0 p1 : Pt3) : Option Clipped :=
  let c0 := regionCode v p0
  let c1 := regionCode v p1
  if c0 = 0 ∧ c1 = 0 then some ⟨.visibleUnclipped, p0, p1⟩
  else if c0 &&& c1 ≠ 0 then none
  else
    match clipParams v p0 p1 with
    | none => none
    | some t =>
      let q0 := if c0 = 0 then p0 else clipAt p0 p1 t.1
      let q1 := if c1 = 0 then p1 else clipAt p0 p1 t.2
      if c0 = 0 then some ⟨.clippedExit, q0, q1⟩
      else if c1 = 0 then some ⟨.clippedEntry, q0, q1⟩
      else some ⟨.clippedBoth, q0, q1⟩

/-- The number of steps of a line: the larger of the two axis distances (R132). -/
def lineSteps (q0 q1 : Pt3) : Nat := max (q1.x - q0.x).natAbs (q1.y - q0.y).natAbs

/-- Point `k` of the reference line (R132). -/
def rasterPoint (q0 q1 : Pt3) (k : Nat) : Pt3 :=
  let ax := (q1.x - q0.x).natAbs
  let ay := (q1.y - q0.y).natAbs
  let sx := (q1.x - q0.x).sign
  let sy := (q1.y - q0.y).sign
  let n := lineSteps q0 q1
  let z := q0.z + Int.tdiv ((q1.z - q0.z) * (k : Int)) (n : Int)
  if ay ≤ ax then ⟨q0.x + sx * (k : Int), q0.y + sy * ((((2 * k * ay + n) / (2 * n) : Nat)) : Int), z⟩
  else ⟨q0.x + sx * ((((2 * k * ax + n) / (2 * n) : Nat)) : Int), q0.y + sy * (k : Int), z⟩

/-- The reference rasterizer: the midpoint line, ties away from `q0` (R132). -/
def rasterReference (q0 q1 : Pt3) : List Pt3 :=
  if lineSteps q0 q1 = 0 then [q0] else (List.range (lineSteps q0 q1 + 1)).map (rasterPoint q0 q1)

/-- Whether `v` lies between `a` and `b`, in either order. -/
def between (a b v : Int) : Bool := decide (min a b ≤ v) && decide (v ≤ max a b)

/-- Whether one raster point follows another as R133 (3) asks: 1 along the major axis, 0 or 1 along the minor, both
toward `q1`. -/
def rasterStepOk (q0 q1 a b : Pt3) : Bool :=
  let sx := (q1.x - q0.x).sign
  let sy := (q1.y - q0.y).sign
  if (q1.y - q0.y).natAbs ≤ (q1.x - q0.x).natAbs then
    decide (b.x - a.x = sx) && (decide (b.y = a.y) || decide (b.y - a.y = sy))
  else decide (b.y - a.y = sy) && (decide (b.x = a.x) || decide (b.x - a.x = sx))

/-- Whether consecutive points of a list all follow each other so (R133 (3)). -/
def rasterStepsOk (q0 q1 : Pt3) : List Pt3 → Bool
  | a :: b :: t => rasterStepOk q0 q1 a b && rasterStepsOk q0 q1 (b :: t)
  | _ => true

/-- The properties every rasterizer must keep (R133). A zero-length line is its first point (R132, R133 (6); log 7). -/
def rasterOk (q0 q1 : Pt3) (l : List Pt3) : Bool :=
  if lineSteps q0 q1 = 0 then decide (l = [q0])
  else
    decide (l.length = lineSteps q0 q1 + 1) && decide (l.head? = some q0) && decide (l.getLast? = some q1)
      && rasterStepsOk q0 q1 l
      && l.all fun p => between q0.x q1.x p.x && between q0.y q1.y p.y && between q0.z q1.z p.z

/-- `Raster(q0, q1)` under the parameter `rasterize` (R132): the reference, or a replacement wherever it keeps the
properties of R133. -/
def raster (c : Params) (q0 q1 : Pt3) : List Pt3 :=
  match c.rasterize with
  | .reference => rasterReference q0 q1
  | .other n =>
    let l := Config.otherRasterize n q0 q1
    if rasterOk q0 q1 l then l else rasterReference q0 q1

/-- The mask of a line type (R134). -/
def dashMask (c : Params) (t : LineType) : BitVec 32 :=
  match t with
  | .solid => c.dashSolid
  | .longDash => c.dashLong
  | .shortDash => c.dashShort
  | .dotDash => c.dashDot

/-- `DashOn(lineType, k mod 32)`, the counter being five bits wide (R110, R134). -/
def dashOn (c : Params) (t : LineType) (k : Nat) : Bool := (dashMask c t).getLsbD (k % 32)

end Sys2Proof.Machine
end

