-- ==== Sys2Proof/Machine/Arc.lean ====
section
/-! DEFINITION. Arcs (R135, R136). R135's reference is in real arithmetic; here it is computed in binary fixed point
with `fixBits` fractional bits. Every intermediate value is off by less than 2^-100, and a value within 2^-64 of a
rounding boundary counts as on it, so exact ties round as R135 says (log 8: UNVERIFIED beyond that precision). -/

namespace Sys2Proof.Machine

/-- The number of fractional bits. -/
def fixBits : Nat := 128

/-- One, in fixed point: `2^fixBits`. -/
def fixOne : Int := 0x100000000000000000000000000000000

/-- The tolerance at rounding boundaries: `2^-64` in fixed point. -/
def fixTol : Int := 0x10000000000000000

/-- Fixed-point product, rounded down. -/
def fixMul (a b : Int) : Int := a * b / fixOne

/-- Fixed-point quotient, rounded down; the divisor is positive. -/
def fixDiv (a b : Int) : Int := a * fixOne / b

/-- Newton's iteration for the integer square root, from above, `fuel` steps at most. -/
def isqrtLoop : Nat → Nat → Nat → Nat
  | 0, _, x => x
  | fuel + 1, n, x =>
    let y := (x + n / x) / 2
    if y < x then isqrtLoop fuel n y else x

/-- The integer square root. -/
def isqrt (n : Nat) : Nat := if n = 0 then 0 else isqrtLoop 200 n (2 ^ (Nat.log2 n / 2 + 1))

/-- Fixed-point square root of a value that is not negative. -/
def fixSqrt (a : Int) : Int := (isqrt (a * fixOne).toNat : Nat)

/-- `terms` terms of `t − t³/3 + t⁵/5 − …`, `p` the next power of `t` with its sign, `m` its odd divisor. -/
def atanSeries : Nat → Int → Int → Int → Int → Int
  | 0, _, _, _, acc => acc
  | terms + 1, t2, p, m, acc => atanSeries terms t2 (-(fixMul p t2)) (m + 2) (acc + p / m)

/-- `tan(φ/2)` from `tan φ`. -/
def tanHalf (t : Int) : Int := fixDiv t (fixOne + fixSqrt (fixOne + fixMul t t))

/-- The arc tangent of a value in `[0, 1]`: three halvings, then the series. -/
def fixAtan (t : Int) : Int :=
  let h := tanHalf (tanHalf (tanHalf t))
  8 * atanSeries 24 (fixMul h h) h 1 0

/-- π in fixed point: four times the arc tangent of 1. -/
def fixPi : Int := 4 * fixAtan fixOne

/-- The angle in `[0, π]` of the direction `(x, y)` with `y ≥ 0`, not both 0. -/
def fixAngle (x y : Int) : Int :=
  if y ≤ x then fixAtan (fixDiv y x)
  else if -y ≤ x then (if 0 ≤ x then fixPi / 2 - fixAtan (fixDiv x y) else fixPi / 2 + fixAtan (fixDiv (-x) y))
  else fixPi - fixAtan (fixDiv y (-x))

/-- `terms` terms of the cosine or sine series: `p` the next term with its sign, `m` the next factor of its factorial.
-/
def trigSeries : Nat → Int → Int → Int → Int → Int
  | 0, _, _, _, acc => acc
  | terms + 1, t2, p, m, acc => trigSeries terms t2 (-(fixMul p t2) / (m * (m + 1))) (m + 2) (acc + p)

/-- The cosine of an angle in `[0, 2π]`. -/
def fixCos (t : Int) : Int := trigSeries 40 (fixMul t t) fixOne 1 0

/-- The sine of an angle in `[0, 2π]`. -/
def fixSin (t : Int) : Int := trigSeries 40 (fixMul t t) t 2 0

/-- `rnd` of a fixed-point value: to the nearest integer, halves away from zero (R11). -/
def fixRnd (v : Int) : Int :=
  if 0 ≤ v then (v + fixOne / 2 + fixTol) / fixOne else -((-v + fixOne / 2 + fixTol) / fixOne)

/-- `rnd(a/b)` for `b > 0`: to the nearest integer, halves away from zero (R11). -/
def rndDiv (a b : Int) : Int := if 0 ≤ a then (2 * a + b) / (2 * b) else -((2 * -a + b) / (2 * b))

/-- The included angle Δ in `(0, 2π]`, counter-clockwise from `(ax, ay)` to `(bx, by)`; 2π where the two have one
direction (R135). -/
def arcAngle (ax ay bx bY : Int) : Int :=
  let cross := ax * bY - ay * bx
  let dot := ax * bx + ay * bY
  if cross = 0 then (if 0 < dot then 2 * fixPi else fixPi)
  else if 0 < cross then fixAngle (dot * fixOne) (cross * fixOne)
  else 2 * fixPi - fixAngle (dot * fixOne) (-cross * fixOne)

/-- The largest chord angle `2·acos(1 − 1/rmax)` for `rmax ≥ 1`: its cosine is `(rmax − 1)/rmax` and its sine
`√(2·rmax − 1)/rmax` (R135). -/
def arcChordAngle (rmax : Int) : Int := 2 * fixAngle (rmax - fixOne) (fixSqrt (2 * rmax - fixOne))

/-- The chord count `clamp(ceil(Δ/δmax), 1, ARC_MAX)` (R135). -/
def arcChords (arcMax : Nat) (delta chord : Int) : Nat :=
  min arcMax (max 1 (-((fixTol - fixDiv delta chord) / fixOne)).toNat)

/-- Vertex `j` of `N` of the reference arc, `1 ≤ j ≤ N − 1` (R135). `(ax, ay)` is `p0 − pc`. -/
def arcVertex (p0 pc p1 : Pt3) (ax ay r0 r1 delta : Int) (N j : Nat) : Pt3 :=
  let phi := delta * (j : Int) / (N : Int)
  let r := r0 + (r1 - r0) * (j : Int) / (N : Int)
  let cs := fixCos phi
  let sn := fixSin phi
  let ux := fixDiv (ax * fixOne) r0
  let uy := fixDiv (ay * fixOne) r0
  ⟨fixRnd (pc.x * fixOne + fixMul r (fixMul ux cs - fixMul uy sn)),
    fixRnd (pc.y * fixOne + fixMul r (fixMul ux sn + fixMul uy cs)),
    rndDiv (p0.z * (N : Int) + (p1.z - p0.z) * (j : Int)) (N : Int)⟩

/-- The reference chord vertices `v_0 … v_N` (R135). -/
def arcReference (arcMax : Nat) (p0 pc p1 : Pt3) : List Pt3 :=
  let ax := p0.x - pc.x
  let ay := p0.y - pc.y
  let bx := p1.x - pc.x
  let bY := p1.y - pc.y
  let n0 := ax * ax + ay * ay
  let n1 := bx * bx + bY * bY
  if n0 = 0 ∨ n1 = 0 then [p0, p1]
  else
    let r0 := fixSqrt (n0 * fixOne)
    let r1 := fixSqrt (n1 * fixOne)
    let delta := arcAngle ax ay bx bY
    let N := arcChords arcMax delta (arcChordAngle (max r0 r1))
    p0 :: (List.range (N - 1)).map (fun j => arcVertex p0 pc p1 ax ay r0 r1 delta N (j + 1)) ++ [p1]

/-- Whether `|d| ≤ r + 1` for the real `r = √n`: whether `(|d| − 1)² ≤ n` or `|d| ≤ 1`. -/
def withinRadius (n : Int) (d : Int) : Bool :=
  decide (d.natAbs ≤ 1) || decide (((d.natAbs : Int) - 1) * ((d.natAbs : Int) - 1) ≤ n)

/-- The properties every chord-vertex list must keep (R135): from `p0` to `p1`, 1 to `ARC_MAX` chords, every vertex
within `rmax + 1` of the centre in X and Y. -/
def arcOk (arcMax : Nat) (p0 pc p1 : Pt3) (v : List Pt3) : Bool :=
  let n0 := (p0.x - pc.x) * (p0.x - pc.x) + (p0.y - pc.y) * (p0.y - pc.y)
  let n1 := (p1.x - pc.x) * (p1.x - pc.x) + (p1.y - pc.y) * (p1.y - pc.y)
  decide (v.head? = some p0) && decide (v.getLast? = some p1) && decide (2 ≤ v.length)
    && decide (v.length ≤ arcMax + 1)
    && v.all fun q => withinRadius (max n0 n1) (q.x - pc.x) && withinRadius (max n0 n1) (q.y - pc.y)

/-- `ArcVertices(p0, pc, p1)` under the parameter `arcVertices` (R135): the reference or a replacement, one chord where
the list does not keep R135's properties (log 8). -/
def arcVertices (c : Params) (p0 pc p1 : Pt3) : List Pt3 :=
  let v :=
    match c.arcVertices with
    | .reference => arcReference c.arcMax p0 pc p1
    | .other n => Config.otherArcVertices n p0 pc p1
  if arcOk c.arcMax p0 pc p1 v then v else [p0, p1]

/-- The raster points of one chord, its first point dropped where the chord before it has drawn it (R136). -/
def chordPoints (c : Params) (v : Viewport) (first : Bool) (a b : Pt3) : List Pt3 :=
  match clip v a b with
  | none => []
  | some r =>
    if !first && (r.tag == .visibleUnclipped || r.tag == .clippedExit) then (raster c r.q0 r.q1).drop 1
    else raster c r.q0 r.q1

/-- The raster points of the chords between consecutive vertices, in order (R136). -/
def chordsPoints (c : Params) (v : Viewport) (first : Bool) : List Pt3 → List Pt3
  | a :: b :: t => chordPoints c v first a b ++ chordsPoints c v false (b :: t)
  | _ => []

/-- `ArcPoints(p0, pc, p1)`: the points of the whole arc as one list (R136). -/
def arcPoints (c : Params) (v : Viewport) (p0 pc p1 : Pt3) : List Pt3 :=
  chordsPoints c v true (arcVertices c p0 pc p1)

end Sys2Proof.Machine
end

