-- ==== Sys2Proof/Machine/Draw.lean ====
section
/-! DEFINITION. How an item draws: whether it is lit (R108), at what intensity (R109), its pixel run (R110), a segment
with the two-phase edge protocol (R112, R113), a point (R114) and an arc (R124). -/

namespace Sys2Proof.Machine

/-- `Lit(I)`: the intensify bit, the blink phase of the cycle's sample and console 0 (R108). -/
def lit (s : State) (i : Bool) : Bool := i && !(s.P.blinkEna && !s.blinkOn) && s.regs.cons0

/-- `DepthCue(i, z)` under the parameter `depthCue`; the default is `clamp(i + fdiv(z, 128), 0, 7)` (R109). -/
def depthCue (c : Params) (i : BitVec 3) (z : Int) : BitVec 3 :=
  match c.depthCue with
  | .reference => BitVec.ofNat 3 (min 7 (max 0 ((i.toNat : Int) + z / 128))).toNat
  | .other n => Config.otherDepthCue n i z

/-- `Intensity(z)` (R109, R110). -/
def intensityAt (s : State) (z : Int) : BitVec 3 :=
  if isVs60 s && s.P.depthCue then depthCue s.cfg s.P.intensity z else s.P.intensity

/-- The pixel of a raster point (R110). -/
def pixelAt (s : State) (p : Pt3) : Pixel := ⟨p.x, p.y, p.z, intensityAt s p.z, s.regs.color⟩

/-- The pixels of raster points that the dash pattern lights, the line-style counter starting at `k` (R110). -/
def dashedPixels (s : State) : Nat → List Pt3 → List Pixel
  | _, [] => []
  | k, p :: t => if dashOn s.cfg s.P.lineType k then pixelAt s p :: dashedPixels s (k + 1) t else dashedPixels s (k + 1) t

/-- `PixelRun(pts, I)` (R110). -/
def pixelRun (s : State) (pts : List Pt3) (i : Bool) : List Pixel := if lit s i then dashedPixels s 0 pts else []

/-- Whether edge events are raised (R112, R113). -/
def edgesOn (s : State) : Bool := isVs60 s && s.P.edgeIntrEna

/-- `Segment(p0, p1, I)`: a straight segment with the two-phase edge protocol (R113). -/
def segment (p0 p1 : Pt3) (i : Bool) (s : State) : State :=
  match clip (viewport s) p0 p1 with
  | none => s
  | some r =>
    let run := pixelRun s (raster s.cfg r.q0 r.q1) i
    match r.tag with
    | .visibleUnclipped => drawRun none false run s
    | .clippedExit => drawRun (if edgesOn s then some r.q1 else none) false run s
    | .clippedEntry =>
      if edgesOn s then { edgeEvent r.q0 false s with clipPend := some ⟨run, none⟩ } else drawRun none false run s
    | .clippedBoth =>
      if edgesOn s then { edgeEvent r.q0 false s with clipPend := some ⟨run, some r.q1⟩ }
      else drawRun none false run s

/-- Move to a normalized position and report its displayed coordinates (R27, R113, R114). -/
def moveTo (newPos : Pt3) (s : State) : State := { s with pos := newPos, rpt := displayed s newPos }

/-- `VecItem(newPos, I)`: move, then draw the segment from the old displayed position to the new (R113). -/
def vecItem (newPos : Pt3) (i : Bool) (s : State) : State :=
  segment (displayed s s.pos) (displayed s newPos) i (moveTo newPos s)

/-- `PointItem(newPos, I)`: move, then plot the point where it lies in the viewport (R114). -/
def pointItem (newPos : Pt3) (i : Bool) (s : State) : State :=
  let p := displayed s newPos
  let s := moveTo newPos s
  if inViewport (viewport s) p then drawRun none false (pixelRun s [p] i) s else s

/-- An arc from the position, `dc` the scaled centre delta, `de` the scaled end delta; no edge events (R124, R136). -/
def arcItem (dc de : Pt3) (i : Bool) (s : State) : State :=
  let p0 := displayed s s.pos
  let p1 := displayed s (addPt s.pos de)
  let s := moveTo (addPt s.pos de) s
  drawRun none false (pixelRun s (arcPoints s.cfg (viewport s) p0 (addPt p0 dc) p1) i) s

/-- `ClipStep()`: the visible remainder of a vector whose entry edge interrupt was taken is drawn (R80). -/
def clipStep (c : Cont) (s : State) : State := drawRun c.exit false c.run { s with clipPend := none }

end Sys2Proof.Machine
end

