-- ==== Sys2Proof/Machine/Characters.lean ====
section
/-! DEFINITION. Character generation (44_characters.md): one character code with the terminate test, the control codes
and the shift (R137 to R139), the metrics (R140), baseline clipping (R141, R142) and the two renderers (R143 to R145).
-/

namespace Sys2Proof.Machine

/-- The two character sets (R137). -/
inductive CharSet where
  | main
  | alt
deriving DecidableEq, Repr, Inhabited

/-- Whether the configured renderer draws strokes (R143). -/
def strokes (s : State) : Bool := s.cfg.renderer == .stroke

/-- Whether characters are rotated: VS60, Stroke renderer, `rotate` set (R139, R144). -/
def rotated (s : State) : Bool := isVs60 s && strokes s && s.P.rotate

/-- Twice the character scale: `csIndex + 1` for strokes on the VS60, else 2 (R140). -/
def charScale2 (s : State) : Int := if isVs60 s && strokes s then (s.P.csIndex.toNat : Int) + 1 else 2

/-- `rnd(a/2)`, halves away from zero (R11). -/
def rndHalf (a : Int) : Int := Int.tdiv (a + a.sign) 2

/-- Half of twice a metric, a free value where it is no integer (R140; log 14). -/
def halfMetric (a : Int) : Int := if a % 2 = 0 then a / 2 else Config.halfMetric a

/-- The character advance `A = CW·s` (R140). -/
def charAdvance (s : State) : Int := halfMetric ((s.cfg.cw : Int) * charScale2 s)

/-- The line height `L = LH·s` (R140). -/
def lineHeight (s : State) : Int := halfMetric ((s.cfg.lh : Int) * charScale2 s)

/-- The position after a glyph: the advance along X, or along Y when rotated (R141). -/
def advanced (s : State) : Pt3 :=
  if rotated s then addPt s.pos ⟨0, charAdvance s, 0⟩ else addPt s.pos ⟨charAdvance s, 0, 0⟩

/-- Backspace: the position moves back by the advance (R139). -/
def backspaced (s : State) : Pt3 :=
  if rotated s then addPt s.pos ⟨0, -charAdvance s, 0⟩ else addPt s.pos ⟨-charAdvance s, 0, 0⟩

/-- Line feed: the position moves down by the line height (R139). -/
def lineFed (s : State) : Pt3 :=
  if rotated s then addPt s.pos ⟨lineHeight s, 0, 0⟩ else addPt s.pos ⟨0, -lineHeight s, 0⟩

/-- Carriage return: the normalized position along the line becomes 0 (R139). -/
def returned (s : State) : Pt3 := if rotated s then { s.pos with y := 0 } else { s.pos with x := 0 }

/-- The dot glyph of a code, empty where the font lists none (R144). -/
def dotGlyph (c : Params) (set : CharSet) (b : BitVec 7) : BitVec 48 :=
  let font := match set with
    | .main => c.dotFont
    | .alt => c.dotAltFont
  match font.find? fun e => e.1 == b with
  | none => 0
  | some e => e.2

/-- The stroke glyph of a code, empty where the font lists none (R145). -/
def strokeGlyph (c : Params) (set : CharSet) (b : BitVec 7) : List Stroke :=
  let font := match set with
    | .main => c.strokeFont
    | .alt => c.strokeAltFont
  match font.find? fun e => e.1 == b with
  | none => []
  | some e => e.2

/-- The two raster points of a dot (R144). -/
def dotPoints (italics : Bool) (o : Pt3) (col row : Nat) : List Pt3 :=
  let x := o.x + 2 * (col : Int) + (if italics then (row : Int) else 0)
  let y := o.y + 2 * (row : Int)
  [⟨x, y, o.z⟩, ⟨x + 1, y, o.z⟩]

/-- `GlyphPoints_dot`: rows upward, columns left to right (R144). -/
def glyphPointsDot (italics : Bool) (g : BitVec 48) (o : Pt3) : List Pt3 :=
  (List.range 8).flatMap fun row =>
    (List.range 6).flatMap fun col => if g.getLsbD (6 * row + col) then dotPoints italics o col row else []

/-- The raster point of the pen at `(U, V)` font units: italics, scale, rotation (R145). -/
def penPoint (s : State) (o : Pt3) (U V : Int) : Pt3 :=
  let u := rndHalf (charScale2 s * (U + if s.P.italics then Int.tdiv V 4 else 0))
  let v := rndHalf (charScale2 s * V)
  if rotated s then ⟨o.x - v, o.y + u, o.z⟩ else ⟨o.x + u, o.y + v, o.z⟩

/-- The raster points of strokes, the pen at `(U, V)` and its last raster point `prev` (R145). -/
def strokePoints (s : State) (o : Pt3) : Int → Int → Pt3 → List Stroke → List Pt3
  | _, _, _, [] => []
  | U, V, prev, k :: t =>
    let nxt := penPoint s o (U + k.du) (V + k.dv)
    (if k.vis then raster s.cfg prev nxt else []) ++ strokePoints s o (U + k.du) (V + k.dv) nxt t

/-- `GlyphPoints(set, b, o)` under the parameter `renderer` (R143 to R145). -/
def glyphPoints (s : State) (set : CharSet) (b : BitVec 7) (o : Pt3) : List Pt3 :=
  match s.cfg.renderer with
  | .dotMatrix => glyphPointsDot s.P.italics (dotGlyph s.cfg set b) o
  | .stroke => strokePoints s o 0 0 o (strokeGlyph s.cfg set b)

/-- Light a glyph's pixels, all of them; the first hit acted on is kept (R142). -/
def lightGlyph : List Pixel → Option Pt3 → State → State × Option Pt3
  | [], first, s => (s, first)
  | p :: t, first, s =>
    let r := illuminate p.x p.y p.i p.c s
    lightGlyph t (if r.2 && r.1.P.lpIntrEna && first.isNone then some ⟨p.x, p.y, p.z⟩ else first) r.1

/-- `GlyphDraw(pts)`: the glyph is one unit for the light pen; glyphs are solid and always intensified (R142). -/
def glyphDraw (pts : List Pt3) (s : State) : State :=
  let r := lightGlyph (if lit s true then pts.map (pixelAt s) else []) none s
  match r.2 with
  | none => r.1
  | some q => lightPenHit q r.1

/-- The edge event of a character that crosses the viewport's boundary, its origin `o` before and `o'` after: where
exactly one of the two is on-screen (R141). -/
def charCrossing (o o' : Pt3) (s : State) : State :=
  if edgesOn s && (inViewport (viewport s) o != inViewport (viewport s) o') then
    edgeEvent (if inViewport (viewport s) o then o else o') (inViewport (viewport s) o) s
  else s

/-- `Glyph(set, b)`: advance, then draw where both origins are on-screen, else raise the character's edge event where
exactly one is (R141). -/
def glyph (set : CharSet) (b : BitVec 7) (s : State) : State :=
  let o := displayed s s.pos
  let o' := displayed s (advanced s)
  let t := moveTo (advanced s) s
  if inViewport (viewport s) o && inViewport (viewport s) o' then glyphDraw (glyphPoints s set b o) t
  else charCrossing o o' t

/-- A faulted printing character: the advance without the glyph (R159, R162). R162 states no answer to whether a
crossing of the viewport's boundary is still reported; a free value says (log 9). -/
def faultedGlyph (b : BitVec 7) (s : State) : State :=
  let t := moveTo (advanced s) s
  if Config.charFaultEdge b s.pos s.tick then charCrossing (displayed s s.pos) (displayed s (advanced s)) t else t

/-- What a printing code does: the whole glyph, or what is left of it for a faulted character (R141, R162). -/
def printCode (draw : Bool) (set : CharSet) (b : BitVec 7) (s : State) : State :=
  if draw then glyph set b s else faultedGlyph b s

/-- The case analysis on the code (R137, R139); `draw` is false for a faulted character. DEDUCED (log 22): SO, SI and an
ignored code do not report the position, as R137's cases say, where R27 and D53 speak of every control code. -/
def charCode (draw : Bool) (b : BitVec 7) (s : State) : State :=
  if b = 0o010 then moveTo (backspaced s) s
  else if b = 0o012 then moveTo (lineFed s) s
  else if b = 0o015 then moveTo (returned s) s
  else if b = 0o016 then { s with regs := { s.regs with so := true } }
  else if b = 0o017 then { s with regs := { s.regs with so := false } }
  else if b.toNat < 0o040 then (if s.regs.so then printCode draw .alt b s else s)
  else printCode draw .main b s

/-- Whether the character fault is raised for an item under the parameter `charFaultCond`: never by default (R162). -/
def charFaultHolds (b : BitVec 7) (s : State) : Bool :=
  match s.cfg.charFault with
  | .never => false
  | .codes cs => cs.contains b
  | .other n => Config.otherCharFault n b s.regs.so s.pos s.tick

/-- A faulted character: the flag and the request, then all that the code does but the drawing (R162): the item that
raised the request has moved the position and set the report coordinates (R159, D54). DEDUCED (log 9): so a faulted SO,
SI or ignored code, whose position stays, reports it. -/
def charFaultItem (b : BitVec 7) (s : State) : State :=
  charCode false b (moveTo s.pos (raise .charFault { s with flags := { s.flags with charFault := true } }))

/-- Whether a code is the terminating character (R138). -/
def terminates (b : BitVec 7) (s : State) : Bool := isVs60 s && s.P.charEsc && b == s.regs.termChar

/-- `CharItem(b)`: the state, and whether the item ended character processing (R137, R138). -/
def charItem (b : BitVec 7) (s : State) : State × Bool :=
  if terminates b s then (pop true s, true)
  else if charFaultHolds b s then (charFaultItem b s, false)
  else (charCode true b s, false)

end Sys2Proof.Machine
end

