-- ==== Sys2Proof/Machine/Graphic.lean ====
section
/-! DEFINITION. The meanings of the graphic-data words (42_graphic_data.md), one definition per row of the opcode
table: the assembly of items (R106), the item of each mode (R116 to R125), and the two-item words (R79, R115, R123).
Items are written over their decoded operands, not over bit positions (R5). -/

namespace Sys2Proof.Machine

/-- Operand `k` of an item that has a Z word, else `d` (R51, R65). -/
def zOperandOr (s : State) (m : Mode) (ws : List Word) (k : Nat) (d : Int) : Int :=
  if zWords s then itemOperand s m ws k else d

/-- A move by the first two operands of an item, scaled, Z kept (R107, R116, R122, R123). -/
def shortMove (m : Mode) (ws : List Word) (s : State) : Pt3 :=
  addPt s.pos ⟨scaled s (itemOperand s m ws 0), scaled s (itemOperand s m ws 1), 0⟩

/-- A move to the coordinates of an item, unscaled, Z kept where it has none (R118, R125). -/
def absMove (m : Mode) (ws : List Word) (s : State) : Pt3 :=
  ⟨itemOperand s m ws 0, itemOperand s m ws 1, zOperandOr s m ws 2 s.pos.z⟩

/-- SVECT's item (R116). -/
def svectItem (ws : List Word) (s : State) : State := vecItem (shortMove .svect ws s) (itemLit s .svect ws) s

/-- LVECT's item (R117). -/
def lvectItem (ws : List Word) (s : State) : State :=
  let d := fun k => scaled s (itemOperand s .lvect ws k)
  vecItem (addPt s.pos ⟨d 0, d 1, if zWords s then d 2 else 0⟩) (itemLit s .lvect ws) s

/-- OFFSET's item: the offsets, Z only where the item has a Z word; no move, no drawing, no report (R119). -/
def offsetItem (ws : List Word) (s : State) : State :=
  { s with off := ⟨itemOperand s .point ws 0, itemOperand s .point ws 1, zOperandOr s .point ws 2 s.off.z⟩ }

/-- POINT's item, or OFFSET's where the first word's OFFSET bit is set on the VS60 (R118). -/
def pointModeItem (ws : List Word) (s : State) : State :=
  if isOffsetItem s .point ws then offsetItem ws s else pointItem (absMove .point ws s) (itemLit s .point ws) s

/-- GRAPHX's item: X from the word, Y stepped by the increment (R120). -/
def graphxItem (ws : List Word) (s : State) : State :=
  pointItem ⟨itemOperand s .graphx ws 0, s.pos.y + (s.regs.graphInc.toNat : Int), s.pos.z⟩ (itemLit s .graphx ws) s

/-- GRAPHY's item: Y from the word, X stepped by the increment (R121). -/
def graphyItem (ws : List Word) (s : State) : State :=
  pointItem ⟨s.pos.x + (s.regs.graphInc.toNat : Int), itemOperand s .graphy ws 0, s.pos.z⟩ (itemLit s .graphy ws) s

/-- RELPOINT's item: only the end point is plotted (R122). -/
def relpointItem (ws : List Word) (s : State) : State := pointItem (shortMove .relpoint ws s) (itemLit s .relpoint ws) s

/-- CIRCLE's item: centre delta, then end delta, each with its Z where the file has Z (R65, R124). -/
def circleItem (ws : List Word) (s : State) : State :=
  let e := if zWords s then 3 else 2
  let d := fun k => scaled s (itemOperand s .circle ws k)
  arcItem ⟨d 0, d 1, if zWords s then d 2 else 0⟩ ⟨d e, d (e + 1), if zWords s then d (e + 2) else 0⟩
    (itemLit s .circle ws) s

/-- ABSVEC's item (R125). -/
def absvecItem (ws : List Word) (s : State) : State := vecItem (absMove .absvec ws s) (itemLit s .absvec ws) s

/-- The word that a BSVECT item is read as. -/
def bsvWord (b : BitVec 7) : Word := b.setWidth 16

/-- BSVECT's item `b` (R64, R123). -/
def bsvItem (b : BitVec 7) (s : State) : State :=
  vecItem (shortMove .bsvect [bsvWord b] s) (itemLit s .bsvect [bsvWord b]) s

/-- `Item(m, b)`: one item of a two-item word, and whether it ended character processing (R106). -/
def pairItem (k : PairKind) (b : BitVec 7) (s : State) : State × Bool :=
  match k with
  | .char => charItem b s
  | .bsvect => (bsvItem b s, false)

/-- `ExecPair(m, b0, b1)`: the second item runs in the same cycle unless the first raised a request, and not at all
where the first ended character processing (R79, R106). -/
def execPair (k : PairKind) (b0 b1 : BitVec 7) (s : State) : State :=
  let r := pairItem k b0 s
  if r.2 then r.1
  else if r.1.pend = noPend then (pairItem k b1 r.1).1
  else { r.1 with pendHalf := some ⟨k, b1⟩ }

/-- `HalfStep()`: the second item saved by an earlier cycle (R78). -/
def halfStep (h : Half) (s : State) : State := (pairItem h.kind h.item { s with pendHalf := none }).1

/-- `ExecData(w)` for a mode of one item a word or more: add the word, and run the item once it is whole, discarding
a word beyond it (R106). -/
def assemble (m : Mode) (item : List Word → State → State) (w : Word) (s : State) : State :=
  let acc := s.acc ++ [w]
  let n := itemWords s m acc
  if n ≤ acc.length then item (acc.take n) { s with acc := [] } else { s with acc := acc }

/-- CHAR data (R115). -/
def execCharData (f : CharFields) (s : State) : Result :=
  .next (execPair .char (charPair s.cfg.encoding f).1 (charPair s.cfg.encoding f).2 s)

/-- SVECT data (R116). -/
def execSvectData (f : SvFields) (s : State) : Result := .next (assemble .svect svectItem f.toWord s)

/-- LVECT data (R117). -/
def execLvectData (f : DeltaFields) (s : State) : Result := .next (assemble .lvect lvectItem f.toWord s)

/-- POINT data: a word of a POINT item (R118). -/
def execPointData (f : CoordFields) (s : State) : Result := .next (assemble .point pointModeItem f.toWord s)

/-- OFFSET data: a word of an OFFSET item (R119). -/
def execOffsetData (f : CoordFields) (s : State) : Result := .next (assemble .point pointModeItem f.toWord s)

/-- GRAPHX data (R120). -/
def execGraphxData (f : CoordFields) (s : State) : Result := .next (assemble .graphx graphxItem f.toWord s)

/-- GRAPHY data (R121). -/
def execGraphyData (f : CoordFields) (s : State) : Result := .next (assemble .graphy graphyItem f.toWord s)

/-- RELPOINT data (R122). -/
def execRelpointData (f : SvFields) (s : State) : Result := .next (assemble .relpoint relpointItem f.toWord s)

/-- BSVECT data (R123). -/
def execBsvectData (f : BsvFields) (s : State) : Result :=
  .next (execPair .bsvect (bsvectPair s.cfg.encoding f).1 (bsvectPair s.cfg.encoding f).2 s)

/-- CIRCLE data (R124). -/
def execCircleData (f : DeltaFields) (s : State) : Result := .next (assemble .circle circleItem f.toWord s)

/-- ABSVEC data (R125). -/
def execAbsvecData (f : CoordFields) (s : State) : Result := .next (assemble .absvec absvecItem f.toWord s)

end Sys2Proof.Machine
end

