-- ==== Sys2Proof/Machine/Dispatch.lean ====
section
/-! DEFINITION. The one match over the instructions: each arm is one direct call of its instruction's meaning. -/

namespace Sys2Proof.Machine

/-- The meaning of an instruction, run after the fetch has moved the DPC past its word (R77, R87, R106). -/
def exec (i : Instr) (s : State) : Host.Outcome State Fault Refusal :=
  match i with
  | .sgmChar f => Sys2Proof.Machine.execSgmChar f s
  | .sgmSvect f => Sys2Proof.Machine.execSgmSvect f s
  | .sgmLvect f => Sys2Proof.Machine.execSgmLvect f s
  | .sgmPoint f => Sys2Proof.Machine.execSgmPoint f s
  | .sgmGraphx f => Sys2Proof.Machine.execSgmGraphx f s
  | .sgmGraphy f => Sys2Proof.Machine.execSgmGraphy f s
  | .sgmRelpoint f => Sys2Proof.Machine.execSgmRelpoint f s
  | .sgmBsvect f => Sys2Proof.Machine.execSgmBsvect f s
  | .sgmCircle f => Sys2Proof.Machine.execSgmCircle f s
  | .sgmAbsvec f => Sys2Proof.Machine.execSgmAbsvec f s
  | .ldnr name => Sys2Proof.Machine.execLdnr name s
  | .lsrc f => Sys2Proof.Machine.execLsrc f s
  | .djmpAbs ign => Sys2Proof.Machine.execDjmpAbs ign s
  | .djmpAbsVt11 ign => Sys2Proof.Machine.execDjmpAbsVt11 ign s
  | .djmpRel disp => Sys2Proof.Machine.execDjmpRel disp s
  | .djsrAbs ign => Sys2Proof.Machine.execDjsrAbs ign s
  | .djsrRel disp => Sys2Proof.Machine.execDjsrRel disp s
  | .dnop ign => Sys2Proof.Machine.execDnop ign s
  | .dnopVt11 ign => Sys2Proof.Machine.execDnopVt11 ign s
  | .dpopNr ign => Sys2Proof.Machine.execDpopNr ign s
  | .dpopR ign => Sys2Proof.Machine.execDpopR ign s
  | .ldscope f => Sys2Proof.Machine.execLdscope f s
  | .lassoc ign => Sys2Proof.Machine.execLassoc ign s
  | .illegalSub5 low => Sys2Proof.Machine.execIllegalSub5 low s
  | .illegalSub6 low => Sys2Proof.Machine.execIllegalSub6 low s
  | .illegalSub7 low => Sys2Proof.Machine.execIllegalSub7 low s
  | .illegalOp7 low => Sys2Proof.Machine.execIllegalOp7 low s
  | .illegalOp8 low => Sys2Proof.Machine.execIllegalOp8 low s
  | .illegalOp9 low => Sys2Proof.Machine.execIllegalOp9 low s
  | .illegalOp10 low => Sys2Proof.Machine.execIllegalOp10 low s
  | .illegalOp11 low => Sys2Proof.Machine.execIllegalOp11 low s
  | .lsra f => Sys2Proof.Machine.execLsra f s
  | .lsrb f => Sys2Proof.Machine.execLsrb f s
  | .lsrbVt11 ign f => Sys2Proof.Machine.execLsrbVt11 ign f s
  | .lsrbb f => Sys2Proof.Machine.execLsrbb f s
  | .dstop => Sys2Proof.Machine.execDstop s
  | .charData f => Sys2Proof.Machine.execCharData f s
  | .svectData f => Sys2Proof.Machine.execSvectData f s
  | .lvectData f => Sys2Proof.Machine.execLvectData f s
  | .pointData f => Sys2Proof.Machine.execPointData f s
  | .offsetData f => Sys2Proof.Machine.execOffsetData f s
  | .graphxData f => Sys2Proof.Machine.execGraphxData f s
  | .graphyData f => Sys2Proof.Machine.execGraphyData f s
  | .relpointData f => Sys2Proof.Machine.execRelpointData f s
  | .bsvectData f => Sys2Proof.Machine.execBsvectData f s
  | .circleData f => Sys2Proof.Machine.execCircleData f s
  | .absvecData f => Sys2Proof.Machine.execAbsvecData f s

end Sys2Proof.Machine
end

