-- ==== Sys2Proof/Machine/Cycle.lean ====
section
/-! DEFINITION. The core's one step, `Cycle(elapsed)` (40_cycle.md R75 to R80): the input sample, one unit of work, the
check and the aging. `Sys2Proof/Machine/Step.lean` only calls it. -/

namespace Sys2Proof.Machine

/-- The tip switch's part of the sample: a change is reported while Running with the pen and console 0 enabled (R76). -/
def sampleTip (tip : Bool) (s : State) : State :=
  if tip = s.flags.tipSw then s
  else
    let s := { s with flags := { s.flags with tipSw := tip } }
    if s.run = .running ∧ s.P.lpIntrEna ∧ s.regs.cons0 then
      raise .lightPenHit { s with flags := { s.flags with tipChanged := true } }
    else s

/-- `SampleInputs()`: the pen position in raster units, the blink phase and the tip switch (R76). -/
def sample (inp : CycleIn) (s : State) : State :=
  sampleTip inp.tip { s with
    ph := { s.ph with penX := inp.mouseX * (s.ph.scale : Int), penY := inp.mouseY * (s.ph.scale : Int) }
    blinkOn := inp.blinkOn }

/-- A fetch that timed out: the flag and the request, nothing else (R77, R161). -/
def fetchTimeout (s : State) : State := raise .busTimeout { s with flags := { s.flags with timeOut := true } }

/-- The DPC moved past the word fetched, modulo the address space (R77, R43). -/
def advanceDpc (s : State) : State := { s with dpc := wrapAddr s.cfg ((s.dpc : Int) + 2) }

/-- What the instruction of a table row does, `ws` all its words: the instructions with an operand word of the spec
act on their operand at once, a natural number (`natOperand`; log 18), the others as `exec` says (R5, R77). -/
def execRow (r : EncRow) (ws : List Word) (s : State) : Result :=
  let x := natOperand (operandVal ws r.operand)
  if r.op = .djmpAbs ∨ r.op = .djmpAbsVt11 then .next (jumpAbs x s)
  else if r.op = .djsrAbs then .next (callAbs x s)
  else if r.op = .lassoc then .next (loadAssoc x s)
  else exec (rowInstr r ws) s

/-- `ExecOperand(k, a)`: the operand word of a two-word instruction, never class-tested (R77, R93, R95, R103). -/
def execOperand (k : CtlPend) (w : Word) (s : State) : Result :=
  match k with
  | .djmpAbs => .next (jumpAbs (addrOperand w) s)
  | .djsrAbs => .next (callAbs (addrOperand w) s)
  | .lassoc => .next (loadAssoc (assocOperand w) s)
  | .held first =>
    match tableRow s.cfg.encoding s.cfg.variant first with
    | some r => execRow r [first, w] s
    | none => .next (hang s)

/-- What a fetched word does that begins an instruction or belongs to a data item. Under a replaced encoding table
(R5) bit 15 still tells the class (R49), a control word without a row is unrecognized (R105; log 18), and one whose
row has an operand word is held until it comes. -/
def execWord (w : Word) (s : State) : Result :=
  match s.cfg.encoding with
  | .spec => exec (decode (decodeCtx s) w) s
  | .table t =>
    if bit w 15 then
      match t.row s.cfg.variant w with
      | none => .next (hang s)
      | some r => if r.twoWords then .next { s with ctlPend := some (.held w) } else execRow r [w] s
    else exec (decodeTableData t (decodeCtx s) w) s

/-- What a fetched word does: it is the operand awaited, or it is decoded and executed (R77). -/
def dispatchWord (w : Word) (s : State) : Result :=
  match s.ctlPend with
  | some k => execOperand k w { s with ctlPend := none }
  | none => execWord w s

/-- `FetchStep()` (R77). -/
def fetchStep (timeout : Bool) (s : State) : Result :=
  if timeout then .next (fetchTimeout s) else dispatchWord (fetchWord s.cfg s.mem s.dpc) (advanceDpc s)

/-- The one unit of work of a Running cycle: none where a request is latched, else the clipped remainder, else the
pending half, else a fetch (R75). -/
def work (timeout : Bool) (s : State) : Result :=
  if s.pend = noPend then
    match s.clipPend with
    | some c => .next (clipStep c s)
    | none =>
      match s.pendHalf with
      | some h => .next (halfStep h s)
      | none => fetchStep timeout s
  else .next s

/-- A result with what follows it applied to a next state. -/
def thenDo (r : Result) (f : State → State) : Result :=
  match r with
  | .next s => .next (f s)
  | .fault e => .fault e
  | .refused e => .refused e

/-- The cycle is counted, so that free values of different cycles differ (log 3). -/
def countCycle (s : State) : State := { s with tick := s.tick + 1 }

/-- `Cycle(elapsed)` (R75); refused before an `Init` has succeeded (R147). -/
def cycle (inp : CycleIn) (s : State) : Result :=
  if s.ph.ready then
    let s := countCycle (sample inp s)
    if s.run = .running then thenDo (work inp.timeout s) (fun t => age inp.elapsed (check t))
    else .next (age inp.elapsed s)
  else .refused .notInitialized

end Sys2Proof.Machine
end

