-- ==== Sys2Proof/Machine/HostOps.lean ====
section
/-! DEFINITION. The host's operations on the core (R74): the device registers (R31 to R34, R85, R86), `Reset` (R172)
and one operation of any kind. The register layouts are the parameter `hostRegLayout` (log 13). -/

namespace Sys2Proof.Machine

/-- A field of VS60-only state as the host reads it: 0 on VT11 (R85). -/
def vs60Bit (s : State) (b : Bool) : BitVec 1 := BitVec.ofBool (isVs60 s && b)

/-- A field of VS60-only state as the host reads it: 0 on VT11 (R85). -/
def vs60Field {n : Nat} (s : State) (v : BitVec n) : BitVec n := if isVs60 s then v else 0

/-- The Mode-Parameter register (R32). -/
def readModeParameter (s : State) : Word :=
  BitVec.ofBool s.flags.stopFlag ++ modeCode s.P.mode ++ s.P.intensity ++ BitVec.ofBool s.flags.lpFlag
    ++ BitVec.ofBool s.regs.so ++ vs60Bit s s.flags.edgeFlag ++ BitVec.ofBool s.P.italics
    ++ BitVec.ofBool s.P.blinkEna ++ 0#1 ++ lineTypeCode s.P.lineType

/-- The Graphplot/X-position register (R33). -/
def readXPosition (s : State) : Word := s.regs.graphInc ++ BitVec.ofInt 10 s.rpt.x

/-- The CharBuf/Y-position register (R34). -/
def readYPosition (s : State) : Word := 0#6 ++ BitVec.ofInt 10 s.rpt.y

/-- The Status-Parameter register (R85). -/
def readStatusParameter (s : State) : Word :=
  vs60Bit s s.P.rotate ++ vs60Bit s s.regs.menu ++ vs60Bit s s.regs.nameIntrEna ++ vs60Bit s s.P.charEsc
    ++ vs60Bit s s.P.fileZ ++ vs60Bit s s.P.edgeIntrEna ++ vs60Bit s s.P.depthCue ++ vs60Bit s s.flags.edgeExit
    ++ BitVec.ofBool s.flags.tipSw ++ BitVec.ofBool s.flags.tipChanged ++ BitVec.ofBool s.flags.extStopFlag
    ++ vs60Bit s s.flags.nameMatch ++ BitVec.ofBool s.flags.charFault ++ BitVec.ofBool s.flags.timeOut
    ++ BitVec.ofBool s.flags.stackUnder ++ BitVec.ofBool s.flags.stackOver

/-- The Slave-Console/Color register (R85). -/
def readColor (s : State) : Word :=
  0#2 ++ s.regs.syncRate ++ 0#1 ++ BitVec.ofBool s.regs.stopIntrEna ++ vs60Field s s.P.csIndex
    ++ vs60Field s s.P.vscale ++ 0#1 ++ vs60Bit s s.regs.cons1 ++ vs60Bit s s.regs.cons0 ++ s.regs.color

/-- The Stack-Data register: the saved DPC of the frame in use that `stackAddr` names, the live DPC for 8, else 0
(R85). The spec marks neither the DPC nor the stack's registers as VS60 state, so the VT11 reads them too (R24, R25;
log 13). -/
def readStackData (s : State) : Word :=
  if h : s.regs.stackAddr.val < 8 then
    (if s.sp.val ≤ s.regs.stackAddr.val then BitVec.ofNat 16 (s.stk[s.regs.stackAddr.val]).dpc else 0)
  else BitVec.ofNat 16 s.dpc

/-- The Stack-Address/Maintenance register (R85). -/
def readStackAddress (s : State) : Word :=
  0#4 ++ BitVec.ofNat 4 s.sp.val ++ 0#3 ++ BitVec.ofBool s.regs.stackIntrEna ++ BitVec.ofNat 4 s.regs.stackAddr.val

/-- The value of a device register in the default layout (R31, R85). -/
def layoutRead (i : Fin 16) (s : State) : Word :=
  match i.val with
  | 0 => BitVec.ofNat 16 s.dpc
  | 1 => readModeParameter s
  | 2 => readXPosition s
  | 3 => readYPosition s
  | 4 => vs60Field s (BitVec.ofNat 16 s.regs.reloc)
  | 5 => readStatusParameter s
  | 6 => vs60Field s (BitVec.ofInt 16 s.off.x)
  | 7 => vs60Field s (BitVec.ofInt 16 s.off.y)
  | 8 => 0
  | 9 => readColor s
  | 10 => vs60Field s (BitVec.ofNat 16 s.regs.name)
  | 11 => readStackData s
  | 12 => vs60Field s (s.regs.termChar.setWidth 16)
  | 13 => readStackAddress s
  | 14 => vs60Field s (BitVec.ofInt 16 s.rpt.z)
  | _ => vs60Field s (BitVec.ofInt 16 s.off.z)

/-- The bits of a device register whose content the spec leaves open: the reserved bit of Mode-Parameter, the top bits
of CharBuf/Y-position, the registers of open layout, and on the VS60 the bits of Graphplot/X-position above the ten of
R33, where the wider X coordinate that R33 leaves open would stand (R32 to R34, R85, I12, I21, I23). DESIGN CHOICE
(log 13): these bits and no others. -/
def openBits (v : Variant) (i : Nat) : Word :=
  match i with
  | 1 => 0x0004
  | 2 =>
    match v with
    | .vt11 => 0
    | .vs60 => 0xFC00
  | 3 => 0xFC00
  | 5 => 0xFFFF
  | 9 => 0xFFFF
  | 11 => 0xFFFF
  | 13 => 0xFFFF
  | _ => 0

/-- `HostRead(i)` under the parameter `hostRegLayout`: the default layout, or in the open bits a replacement's; a read
has no side effect (R85). -/
def hostRead (i : Fin 16) (s : State) : Word :=
  match s.cfg.hostRegLayout with
  | .reference => layoutRead i s
  | .other n =>
    (layoutRead i s &&& ~~~(openBits s.cfg.variant i.val))
      ||| (Config.otherRegRead n i.val (layoutRead i s) s.tick &&& openBits s.cfg.variant i.val)

/-- The word of the default layout that a write of register `i` stands for under the parameter `hostRegLayout` (R86). -/
def layoutWord (c : Params) (i : Nat) (v : Word) : Word :=
  match c.hostRegLayout with
  | .reference => v
  | .other n => Config.otherRegWrite n i v

/-- A write of the Slave-Console/Color register, `v` in the default layout (R86). -/
def writeColor (v : Word) (s : State) : State :=
  if s.ph.profile.nColors = 2 then { s with regs := { s.regs with color := field v 0 1 } } else s

/-- `min(v[3:0], 8)` (R86). -/
def stackAddrOf (v : Word) : Fin 9 := ⟨min (field v 0 4).toNat 8, by omega⟩

/-- A write of a register that only the VS60 has (R86). -/
def vs60Write (s t : State) : State := if isVs60 s then t else s

/-- A write of the Stack-Address/Maintenance register, `v` in the default layout (R86). -/
def writeStackAddress (v : Word) (s : State) : State :=
  vs60Write s { s with regs := { s.regs with stackAddr := stackAddrOf v, stackIntrEna := bit v 4 } }

/-- A write of Graphplot/X-position: nothing by default; R86 leaves it open, so that under another `hostRegLayout` it
sets the graphplot increment and X to what a free value says (I12; log 13). -/
def writeXPosition (v : Word) (s : State) : State :=
  match s.cfg.hostRegLayout with
  | .reference => s
  | .other n =>
    { s with regs := { s.regs with graphInc := (Config.otherPosWrite n 2 v).inc.getD s.regs.graphInc }
             pos := { s.pos with x := (Config.otherPosWrite n 2 v).coord.getD s.pos.x } }

/-- A write of CharBuf/Y-position: nothing by default, under another `hostRegLayout` Y as a free value says (R86, I12;
log 13). -/
def writeYPosition (v : Word) (s : State) : State :=
  match s.cfg.hostRegLayout with
  | .reference => s
  | .other n => { s with pos := { s.pos with y := (Config.otherPosWrite n 3 v).coord.getD s.pos.y } }

/-- `HostWrite(i, v)` (R31, R86). -/
def hostWrite (i : Fin 16) (v : Word) (s : State) : State :=
  match i.val with
  | 0 => setDpc v s
  | 1 => s
  | 2 => writeXPosition v s
  | 3 => writeYPosition v s
  | 4 => vs60Write s { s with regs := { s.regs with reloc := evenAddr s.cfg v } }
  | 5 => s
  | 6 => vs60Write s { s with off := { s.off with x := v.toInt } }
  | 7 => vs60Write s { s with off := { s.off with y := v.toInt } }
  | 8 => vs60Write s { s with regs := { s.regs with assoc := nameOf s.cfg (field v 0 11).toNat } }
  | 9 => writeColor (layoutWord s.cfg 9 v) s
  | 10 => s
  | 11 => s
  | 12 => vs60Write s { s with regs := { s.regs with termChar := field v 0 7 } }
  | 13 => writeStackAddress (layoutWord s.cfg 13 v) s
  | 14 => vs60Write s { s with pos := { s.pos with z := v.toInt - s.off.z } }
  | _ => vs60Write s { s with off := { s.off with z := v.toInt } }

/-- `Reset()`: every field at its reset value but the phosphor engine, which only `Init` sets, and the frames, whose
contents the spec leaves unspecified (R25, R172; log 10). The host's memory is not the core's. -/
def resetCore (s : State) : State :=
  { s with run := .halted, dpc := 0, pos := ⟨0, 0, 0⟩, off := ⟨0, 0, 0⟩, rpt := ⟨0, 0, 0⟩, P := s.cfg.resetParams,
           regs := resetRegs, sp := 8, flags := noFlags, pend := noPend, acc := [], ctlPend := none, pendHalf := none,
           clipPend := none, lpCont := none, syncTarget := 0 }

/-- One operation of the host (R74). Each is atomic. -/
def hostStep (op : HostOp) (s : State) : Result :=
  match op with
  | .cycle inp => cycle inp s
  | .setDpc v => .next (setDpc v s)
  | .hostWrite i v => .next (hostWrite i v s)
  | .hostRead i => .next (call (.answer i (hostRead i s)) s)
  | .extStop => .next (extStop s)
  | .reset => .next (resetCore s)
  | .init name scale => .next (initEngine name scale s)
  | .store a w => .next { s with mem := storeWord s.cfg s.mem (wrapAddr s.cfg ((a / 2 * 2 : Nat) : Int)) w }

/-- The next transition: the host's next operation, or, where none is listed, a cycle whose inputs are free values
(R74, R75; log 3). -/
def transition (s : State) : Result :=
  match s.todo with
  | [] => cycle (Config.freeInput s.tick) s
  | op :: rest => hostStep op { s with todo := rest }

end Sys2Proof.Machine
end

