-- ==== Sys2Proof/Machine/Step.lean ====
section
/-! DEFINITION. The step: one transition of R74, its calls on collaborators recorded anew; and the placing of one
instruction where the next step fetches it. -/

namespace Sys2Proof.Machine

/-- One step of the machine. -/
def step (s : State) : Host.Outcome State Fault Refusal := transition { s with out := [] }

/-- The inputs of a cycle that takes no time, moves and touches nothing and meets no timeout. -/
def quietInput (s : State) : CycleIn :=
  { elapsed := 0, mouseX := 0, mouseY := 0, tip := s.flags.tipSw, blinkOn := true, timeout := false }

/-- The state with the instruction of a table row's bits stored at the DPC and everything set that makes the very next
step a cycle that fetches and runs it: Running, nothing latched or pending, the engine initialized, and a quiet cycle
as the host's next operation (log 5). -/
def State.withFetchWord (s : State) (nbits w : Nat) : State :=
  { s with run := .running, pend := noPend, ctlPend := none, pendHalf := none, clipPend := none,
           ph := { s.ph with ready := true },
           mem := storeWord s.cfg (storeWord s.cfg s.mem s.dpc (tableWord0 nbits w))
             (wrapAddr s.cfg ((s.dpc : Int) + 2)) (tableWord1 nbits w),
           todo := HostOp.cycle (quietInput s) :: s.todo }

end Sys2Proof.Machine
end

