-- ==== Sys2Proof/Safety.lean ====
section
/-! DEFINITION. The terms in which claims about the machine are stated: legal parameters, the invariants a step keeps,
what drawing may change, and what a run of pixels lights. -/

namespace Sys2Proof

/-- A CRT profile as R146 describes one: at least one decay step and one tick between two, one or two colours. -/
def Profile.legal (p : Profile) : Bool :=
  decide (1 ≤ p.maxTtl) && decide (1 ≤ p.stepTicks) && (p.nColors == 1 || p.nColors == 2)

/-- Whether the VT11 has a graphic mode (R2, R50). -/
def modeOnVt11 (m : Mode) : Bool :=
  match m with
  | .char | .svect | .lvect | .point | .graphx | .graphy | .relpoint => true
  | .bsvect | .circle | .absvec => false

/-- Parameters that describe a machine of the spec: addresses have a bit 0, every profile is legal, and the VT11 resets
to a mode it has. -/
def Params.legal (c : Params) : Bool :=
  decide (1 ≤ c.addrBits) && c.profiles.all Profile.legal && (c.variant == .vs60 || modeOnVt11 c.resetParams.mode)

/-- Whether an instruction is a row of the unrecognized class (R67). -/
def isUnrecognized (i : Instr) : Bool :=
  match i with
  | .illegalSub5 _ | .illegalSub6 _ | .illegalSub7 _ => true
  | .illegalOp7 _ | .illegalOp8 _ | .illegalOp9 _ | .illegalOp10 _ | .illegalOp11 _ => true
  | .sgmChar _ | .sgmSvect _ | .sgmLvect _ | .sgmPoint _ | .sgmGraphx _ | .sgmGraphy _ | .sgmRelpoint _ => false
  | .sgmBsvect _ | .sgmCircle _ | .sgmAbsvec _ | .ldnr _ | .lsrc _ | .djmpAbs _ | .djmpAbsVt11 _ => false
  | .djmpRel _ | .djsrAbs _ | .djsrRel _ | .dnop _ | .dnopVt11 _ | .dpopNr _ | .dpopR _ | .ldscope _ => false
  | .lassoc _ | .lsra _ | .lsrb _ | .lsrbVt11 _ _ | .lsrbb _ | .dstop => false
  | .charData _ | .svectData _ | .lvectData _ | .pointData _ | .offsetData _ | .graphxData _ => false
  | .graphyData _ | .relpointData _ | .bsvectData _ | .circleData _ | .absvecData _ => false

namespace Machine

/-- `s` with everything that drawing can change as in `t`: the position, the report, the engine's cells and queue, the
flags and requests of the light pen and the edge, the two continuations, and the calls made. -/
def drawnState (s t : State) : State :=
  { s with pos := t.pos, rpt := t.rpt, ph := { s.ph with cells := t.ph.cells, queue := t.ph.queue },
           flags := { s.flags with lpFlag := t.flags.lpFlag, edgeFlag := t.flags.edgeFlag,
                                   edgeExit := t.flags.edgeExit },
           pend := { s.pend with lightPenHit := t.pend.lightPenHit, edgeTransition := t.pend.edgeTransition },
           clipPend := t.clipPend, lpCont := t.lpCont, out := t.out }

/-- `t` differs from `s` only in what drawing can change. -/
def Drawn (s t : State) : Prop := t = drawnState s t

/-- Every pixel of a run lit in order, the light pen disregarded (R111). -/
def lightAll (run : List Pixel) (s : State) : State := run.foldl (fun t p => (illuminate p.x p.y p.i p.c t).1) s

/-- Whether lighting a pixel hits the light pen: it is on the grid and within the radius of the pen (R148, R149). -/
def penHits (s : State) (p : Pixel) : Bool := onGrid s.ph p.x p.y && lpTest s p.x p.y

/-- Memory is in its canonical form. -/
def MemoryOk (s : State) : Prop := Memory.wf s.cfg s.mem = true

/-- An address of a word: even, and below the size of the address space (R19, R38, R40). -/
def WordAddr (c : Params) (a : Nat) : Prop := a % 2 = 0 ∧ a < addrSpace c

/-- The DPC, the relocation and every saved DPC are addresses of words (R19, R24, R25, R40). -/
def Aligned (s : State) : Prop :=
  WordAddr s.cfg s.dpc ∧ WordAddr s.cfg s.regs.reloc ∧ ∀ i : Fin 8, WordAddr s.cfg (s.stk[i.val]).dpc

/-- The length of the longest item of a mode, with or without Z words, under the parameter `encoding` (R51). -/
def longestItem (e : Encoding) (m : Mode) : Nat :=
  match e with
  | .spec => itemLen m true
  | .table t => max (max ((t.item m false).length false) ((t.item m false).length true))
      (max ((t.item m true).length false) ((t.item m true).length true))

/-- The words of an item partly assembled are fewer than the longest item of the mode has, and the held second half of
a two-item word belongs to the current mode (R29, R78). -/
def ItemOk (s : State) : Prop :=
  s.acc.length < longestItem s.cfg.encoding s.P.mode ∧
    ∀ h, s.pendHalf = some h →
      match h.kind with
      | .char => s.P.mode = .char
      | .bsvect => s.P.mode = .bsvect

/-- A primitive's undrawn pixels are held only while the machine waits on the light-pen hit that stopped it, and no
request is latched while it is halted or hung (R29, R83, R84, R111). -/
def WaitsOk (s : State) : Prop :=
  (s.lpCont ≠ none → s.run = .awaitResume .lightPenHit) ∧ (s.run = .halted ∨ s.run = .hung → s.pend = noPend)

/-- On the VT11 every piece of VS60 state is at its reset value, no VS60 mode is selected, and nothing of the edge
interrupt, the stack or the name match ever shows (R2, R20, R21, R23, R24). -/
def Vt11Confined (s : State) : Prop :=
  s.cfg.variant = .vt11 →
    modeOnVt11 s.P.mode = true ∧ s.pos.z = 0 ∧ s.off = ⟨0, 0, 0⟩ ∧ s.sp = 8 ∧
    s.P.vscale = s.cfg.resetParams.vscale ∧ s.P.csIndex = s.cfg.resetParams.csIndex ∧
    s.P.rotate = s.cfg.resetParams.rotate ∧ s.P.depthCue = s.cfg.resetParams.depthCue ∧
    s.P.edgeIntrEna = s.cfg.resetParams.edgeIntrEna ∧ s.P.fileZ = s.cfg.resetParams.fileZ ∧
    s.P.charEsc = s.cfg.resetParams.charEsc ∧
    s.regs.nameIntrEna = false ∧ s.regs.menu = false ∧ s.regs.cons0 = true ∧ s.regs.cons1 = false ∧
    s.regs.name = 0 ∧ s.regs.assoc = 0 ∧ s.regs.termChar = 0 ∧ s.regs.reloc = 0 ∧
    s.regs.stackIntrEna = true ∧ s.regs.stackAddr = 8 ∧
    s.flags.edgeFlag = false ∧ s.flags.edgeExit = false ∧ s.flags.stackOver = false ∧ s.flags.stackUnder = false ∧
    s.flags.nameMatch = false ∧ s.pend.edgeTransition = false ∧ s.pend.stackFault = false ∧
    s.pend.nameMatch = false ∧ s.clipPend = none ∧ (∀ c, s.lpCont = some c → c.exit = none) ∧
    (s.ctlPend = none ∨ s.ctlPend = some .djmpAbs ∨ ∃ w, s.ctlPend = some (.held w)) ∧
    s.run ≠ .awaitResume .edgeTransition ∧ s.run ≠ .awaitResume .stackFault ∧ s.run ≠ .awaitResume .nameMatch

/-- The invariant of the phosphor engine (R151, R152): the queue holds each lit cell once and no dark cell; no cell has
more decay steps left than the profile gives; the queue is ordered by `next`, every queued event lying after the clock
and at most one decay interval ahead; and the grid is in its canonical form. -/
def PhosphorOk (p : Phosphor) : Prop :=
  p.profile.legal = true ∧ 1 ≤ p.scale ∧
  sparseWf darkCell (gridWidth p * gridHeight p) p.cells = true ∧
  p.queue.Nodup ∧ (∀ k, k ∈ p.queue ↔ 0 < (cellAt p k).ttl) ∧
  (∀ k, (cellAt p k).ttl ≤ p.profile.maxTtl) ∧
  (p.queue.Pairwise fun j k => (cellAt p j).next ≤ (cellAt p k).next) ∧
  ∀ k ∈ p.queue, p.clock < (cellAt p k).next ∧ (cellAt p k).next ≤ p.clock + p.profile.stepTicks

/-- The clock value at which a lit cell goes dark if it is not lit again (R152 (3)). -/
def darkTime (p : Phosphor) (k : Nat) : Nat := (cellAt p k).next + ((cellAt p k).ttl - 1) * p.profile.stepTicks

/-- The interrupt reasons in priority order, highest first, each with the class by which the host is notified (R154,
R156, R158). -/
def reasonTable : List (Reason × NotifyClass) :=
  [(.lightPenHit, .surface), (.edgeTransition, .surface), (.internalStop, .stop), (.externalStop, .stop),
   (.charFault, .charFault), (.stackFault, .charFault), (.busTimeout, .charFault), (.nameMatch, .name)]

/-- Whether a call is a notification of the host (R158). -/
def isNotify (o : OutCall) : Bool :=
  match o with
  | .notify _ => true
  | .setPixel _ _ _ | .flush | .videoInit _ _ | .initError _ | .answer _ _ => false

/-- Whether a call shows a colour at a cell's place (R150). -/
def isPixelAt (cx cy : Nat) (o : OutCall) : Bool :=
  match o with
  | .setPixel x y _ => x == cx && y == cy
  | .notify _ | .flush | .videoInit _ _ | .initError _ | .answer _ _ => false

/-- The next operation of the host starts the machine at an address (R82, R86). -/
def isStart (op : HostOp) : Bool :=
  match op with
  | .setDpc v => !bit v 0
  | .hostWrite i v => i == 0 && !bit v 0
  | .cycle _ | .hostRead _ | .extStop | .reset | .init _ _ | .store _ _ => false

end Machine

end Sys2Proof
end

