-- ==== Sys2Proof/Certificates/Slice0/Obligations.lean ====
section
/-! DEFINITION. The statements for the provers, each a rule of the spec or a property derived from its rules. -/

open Sys2Proof Sys2Proof.Machine

/-! ## Encoding -/

/-- Decoding the word of an instruction that the context admits gives the instruction back, for every instruction and
every value of its fields (R50 to R64, R68). -/
def Obligations.DecodeOfEncodeIsTheInstruction : Prop :=
  ∀ (ctx : DecodeCtx) (i : Instr), wellFormed ctx i = true → decode ctx (encode i) = i

/-- Every word of every context decodes to an instruction the context admits, and that instruction's word is the word
decoded, no bit dropped (R68). -/
def Obligations.EveryWordDecodesAndEncodesBack : Prop :=
  ∀ (ctx : DecodeCtx) (w : Word), wellFormed ctx (decode ctx w) = true ∧ encode (decode ctx w) = w

/-- The class test and the unrecognized control encodings of the two variants (R49, R67). -/
def Obligations.ClassAndUnrecognizedEncodings : Prop :=
  ∀ (ctx : DecodeCtx) (w : Word),
    isControl (decode ctx w) = w.getLsbD 15 ∧
    (isUnrecognized (decode ctx w) = true ↔
      (ctx.variant = .vt11 ∧ 0o134000 ≤ w.toNat ∧ w.toNat ≤ 0o157777) ∨
      (ctx.variant = .vs60 ∧ 0o166400 ≤ w.toNat ∧ w.toNat ≤ 0o167777))

/-- Words of the spec's examples decode to the instructions the examples name (R72, R88, R90 to R94, R101, R116). -/
def Obligations.ExampleWordsDecode : Prop :=
  let vs60 (m : Mode) (w : Word) : Instr := decode ⟨.vs60, m, none⟩ w
  vs60 .char 0o107000#16 = .sgmSvect ⟨true, 4, false, false, false, false, false, 0⟩ ∧
  vs60 .char 0o173400#16 = .dstop ∧
  vs60 .char 0o174105#16 = .lsrb ⟨0, true, 5⟩ ∧
  vs60 .char 0o176300#16 = .lsrbb ⟨false, false, true, true, false, false, false, false, false, false⟩ ∧
  vs60 .char 0o154060#16 = .lsrc ⟨false, false, false, 0, true, 8, false⟩ ∧
  vs60 .char 0o160000#16 = .djmpAbs 0 ∧
  vs60 .char 0o161776#16 = .djmpRel (-2) ∧
  vs60 .char 0o163003#16 = .djsrRel 3 ∧
  vs60 .char 0o150005#16 = .ldnr 5 ∧
  vs60 .svect 0o042400#16 = .svectData ⟨true, false, 10, false, 0⟩ ∧
  vs60 .char 0o041101#16 = .charData ⟨0x42, false, 0x41⟩ ∧
  vs60 .bsvect 0o022110#16 = .bsvectData ⟨false, 0o110, 0o110⟩

/-! ## The step -/

/-- What a cycle of a Running machine with nothing latched works on, `u` the state after the sample, a change of the
tip switch not reported because the pen or console 0 is disabled: the clipped remainder, else the held second half,
else a fetch. A word fetched moves the DPC past it; it is the operand awaited, or the instruction it decodes to is
executed, which under the spec's own encoding is `decode`'s. Then the cycle checks and ages (R75, R76, R77, R78). The
model's choices (log 18): under a replaced encoding bit 15 still tells the class, a control word without a row hangs
the machine, which no rule of the spec says of a table, and one whose row has an operand word is held until that
comes. -/
def Obligations.StepRunsTheDecodedInstruction : Prop :=
  ∀ (s u v : State) (inp : CycleIn) (rest : List HostOp) (w : Word) (finish : State → State),
    s.todo = .cycle inp :: rest → s.ph.ready = true → s.run = .running → s.pend = noPend →
    (inp.tip = s.flags.tipSw ∨ s.P.lpIntrEna = false ∨ s.regs.cons0 = false) →
    u = { s with todo := rest, out := [], tick := s.tick + 1, blinkOn := inp.blinkOn,
                 flags := { s.flags with tipSw := inp.tip },
                 ph := { s.ph with penX := inp.mouseX * s.ph.scale, penY := inp.mouseY * s.ph.scale } } →
    v = { u with dpc := (s.dpc + 2) % 2 ^ s.cfg.addrBits } →
    w = fetchWord s.cfg s.mem s.dpc → finish = (fun t => age inp.elapsed (check t)) →
    (∀ c, s.clipPend = some c → step s = .next (finish (clipStep c u))) ∧
    (∀ h, s.clipPend = none → s.pendHalf = some h → step s = .next (finish (halfStep h u))) ∧
    (s.clipPend = none → s.pendHalf = none → inp.timeout = false →
      (∀ k, s.ctlPend = some k → step s = thenDo (dispatchWord w v) finish) ∧
      (s.ctlPend = none →
        (∀ i, s.cfg.encoding = .spec → decode (decodeCtx s) w = i → step s = thenDo (exec i v) finish) ∧
        ∀ t, s.cfg.encoding = .table t →
          (w.getLsbD 15 = false → step s = thenDo (exec (decodeTableData t (decodeCtx s) w) v) finish) ∧
          (w.getLsbD 15 = true →
            (∀ r, t.row s.cfg.variant w = some r →
              (r.twoWords = true → step s = .next (finish { v with ctlPend := some (.held w) })) ∧
              (r.twoWords = false → step s = thenDo (execRow r [w] v) finish)) ∧
            (t.row s.cfg.variant w = none → step s = .next (finish { v with
              dpc := (((v.dpc : Int) - 2) % (2 ^ s.cfg.addrBits : Nat)).toNat, run := .hung })))))

/-- A step with no operation listed is a cycle on the free inputs of its number, whatever they are (R76; log 3). -/
def Obligations.StepWithoutOperationIsACycle : Prop :=
  ∀ s : State, s.todo = [] → step s = step { s with todo := [.cycle (Config.freeInput s.tick)] }

/-- A cycle of a Running machine that starts with a request latched, or whose sample latches one, takes the highest and
does nothing else but sample and age: no fetch, no drawing by the interpreter. The sample records the tip switch, and
where it changed with the pen and console 0 enabled it sets `tipChanged` and latches LightPenHit (R75, R76). -/
def Obligations.LatchedRequestIsTakenBeforeAnyWork : Prop :=
  ∀ (s u : State) (inp : CycleIn) (rest : List HostOp) (tip : Bool),
    s.todo = .cycle inp :: rest → s.ph.ready = true → s.run = .running →
    tip = (inp.tip != s.flags.tipSw && s.P.lpIntrEna && s.regs.cons0) → s.pend ≠ noPend ∨ tip = true →
    u = { s with
      todo := rest, out := [], tick := s.tick + 1, blinkOn := inp.blinkOn,
      flags := { s.flags with tipSw := inp.tip, tipChanged := s.flags.tipChanged || tip },
      pend := { s.pend with lightPenHit := s.pend.lightPenHit || tip },
      ph := { s.ph with penX := inp.mouseX * s.ph.scale, penY := inp.mouseY * s.ph.scale } } →
    step s = .next (age inp.elapsed (check u))

/-- In a run state other than Running a cycle changes only the input sample, the phosphor engine and, where a wait for
frame sync has reached its target, the run state (R18, R75, R153). -/
def Obligations.WaitingCycleOnlyAges : Prop :=
  ∀ (s : State) (inp : CycleIn) (rest : List HostOp),
    s.todo = .cycle inp :: rest → s.ph.ready = true → s.run ≠ .running →
    ∃ cells queue out, step s = .next { s with
      todo := rest, tick := s.tick + 1, blinkOn := inp.blinkOn, flags := { s.flags with tipSw := inp.tip },
      run := if s.run = .awaitSync ∧ s.syncTarget ≤ s.ph.clock + inp.elapsed then .running else s.run,
      ph := { s.ph with penX := inp.mouseX * s.ph.scale, penY := inp.mouseY * s.ph.scale,
                        clock := s.ph.clock + inp.elapsed, cells := cells, queue := queue },
      out := out }

/-- Every step answers a next state, but for a cycle before an Init has succeeded, which is refused (R147, R163). -/
def Obligations.StepsAnswerUnlessUninitialized : Prop :=
  ∀ s : State,
    ((s.ph.ready = true ∨ ∃ op rest, s.todo = op :: rest ∧ ∀ inp, op ≠ .cycle inp) → ∃ t, step s = .next t) ∧
    ((s.ph.ready = false ∧ (s.todo = [] ∨ ∃ inp rest, s.todo = .cycle inp :: rest)) → step s = .refused .notInitialized)

/-- No step writes the parameters, and memory changes by the host's store alone: the core never writes it (R9, R37).
The model's choices: the parameters are a field of the state (log 30), the host's operations are listed and consumed one
a step, in order (log 3), and a store's address is taken with bit 0 cleared, modulo the address space (log 25). -/
def Obligations.StepKeepsParametersAndMemory : Prop :=
  ∀ s t : State, step s = .next t → t.cfg = s.cfg ∧ t.todo = s.todo.tail ∧
    ((∀ a w, s.todo.head? ≠ some (.store a w)) → t.mem = s.mem) ∧
    ∀ a w, s.todo.head? = some (.store a w) → t.mem = storeWord s.cfg s.mem (a / 2 * 2 % 2 ^ s.cfg.addrBits) w

/-! ## Control instructions -/

/-- SGM loads the mode and the fields whose load bits are set and restarts the data item; nothing else changes (R88). -/
def Obligations.SgmLoadsModeAndSelectedFields : Prop :=
  ∀ (f : SgmFields) (i : Instr) (m : Mode) (s : State),
    (i, m) ∈ ([(.sgmChar f, .char), (.sgmSvect f, .svect), (.sgmLvect f, .lvect), (.sgmPoint f, .point),
      (.sgmGraphx f, .graphx), (.sgmGraphy f, .graphy), (.sgmRelpoint f, .relpoint), (.sgmBsvect f, .bsvect),
      (.sgmCircle f, .circle), (.sgmAbsvec f, .absvec)] : List (Instr × Mode)) →
    exec i s = .next { s with
      P := { s.P with mode := m, intensity := if f.li then f.int else s.P.intensity,
                      lpIntrEna := if f.llp then f.lp else s.P.lpIntrEna,
                      blinkEna := if f.lbl then f.bl else s.P.blinkEna,
                      lineType := if f.llt then lineTypeOf f.lt else s.P.lineType },
      acc := [] }

/-- LSRA applies its loads, then stops, or waits for frame sync, or goes on; on VT11 the menu bits are ignored, and so
is bit 3 of the spec's encoding; DSTOP is the LSRA that stops with the stop interrupt enabled; a period of 0 has no
frame boundary, and its target is the model's free value (log 29) (R72, R89). -/
def Obligations.LsraLoadsThenStopsOrWaits : Prop :=
  ∀ (f : LsraFields) (s : State) (sync : BitVec 2) (r : Regs) (p : ParamSet),
    sync = (if s.cfg.variant = .vt11 ∧ s.cfg.encoding = .spec then f.sync &&& 1 else f.sync) →
    r = { s.regs with stopIntrEna := if f.lsi then f.si else s.regs.stopIntrEna, syncRate := sync,
                      menu := if s.cfg.variant = .vs60 ∧ f.lmn = true then f.mn else s.regs.menu } →
    p = { s.P with lpIntensify := if f.llpi then f.lpi else s.P.lpIntensify,
                   italics := if f.lit then f.it else s.P.italics } →
    (f.stop = true → exec (.lsra f) s = .next { s with
      regs := r, P := p, flags := { s.flags with stopFlag := true }, pend := { s.pend with internalStop := true } }) ∧
    (f.stop = false → sync = 0 → exec (.lsra f) s = .next { s with regs := r, P := p }) ∧
    (f.stop = false → sync ≠ 0 → exec (.lsra f) s = .next { s with
      regs := r, P := p, run := .awaitSync,
      syncTarget := if syncPeriod s.cfg s.ph.profile sync = 0 then Config.noBoundary s.ph.clock
        else (s.ph.clock / syncPeriod s.cfg s.ph.profile sync + 1) * syncPeriod s.cfg s.ph.profile sync }) ∧
    exec .dstop s = .next { s with
      regs := { s.regs with stopIntrEna := true, syncRate := 0 }, flags := { s.flags with stopFlag := true },
      pend := { s.pend with internalStop := true } }

/-- LSRB, LSRBB, LSRC and LDSCOPE load the fields whose load bits are set and change nothing else (R90, R91, R92,
R102). -/
def Obligations.StatusLoadsLoadSelectedFields : Prop :=
  (∀ (f : LsrbFields) (b : Bool) (s : State) (t : State),
    t = { s with regs := { s.regs with graphInc := if f.lgi then f.gi else s.regs.graphInc } } →
    exec (.lsrb f) s = .next t ∧ exec (.lsrbVt11 b f) s = .next t) ∧
  (∀ (f : LsrbbFields) (s : State), exec (.lsrbb f) s = .next { s with
    P := { s.P with depthCue := if f.ldc then f.dc else s.P.depthCue,
                    edgeIntrEna := if f.lei then f.ei else s.P.edgeIntrEna,
                    fileZ := if f.lz then f.z else s.P.fileZ, charEsc := if f.les then f.es else s.P.charEsc },
    regs := { s.regs with nameIntrEna := if f.lni then f.ni else s.regs.nameIntrEna } }) ∧
  (∀ (f : LsrcFields) (s : State), exec (.lsrc f) s = .next { s with
    P := { s.P with rotate := if f.lro then f.ro else s.P.rotate, csIndex := if f.lcs then f.cs else s.P.csIndex,
                    vscale := if f.lvs then f.vs else s.P.vscale } }) ∧
  (∀ (f : LdscopeFields) (s : State), exec (.ldscope f) s = .next { s with
    regs := { s.regs with cons0 := if f.lc0 then f.c0 else s.regs.cons0,
                          cons1 := if f.lc1 then f.c1 else s.regs.cons1 } })

/-- LDNR loads the name and sets `nameMatch` and latches NameMatch exactly where the test is enabled and the name equals
the associative name (R101). That a name is taken modulo `2^NAME_BITS` is the model's choice (log 1). -/
def Obligations.LdnrLoadsAndTestsTheName : Prop :=
  ∀ (f : Nat) (s : State) (n : Nat), n = f % 2 ^ s.cfg.nameBits →
    (s.regs.nameIntrEna = true ∧ n = s.regs.assoc → exec (.ldnr f) s = .next { s with
      regs := { s.regs with name := n }, flags := { s.flags with nameMatch := true },
      pend := { s.pend with nameMatch := true } }) ∧
    (¬(s.regs.nameIntrEna = true ∧ n = s.regs.assoc) →
      exec (.ldnr f) s = .next { s with regs := { s.regs with name := n } })

/-- DNOP has no effect, and the first word of a two-word instruction only records which operand is awaited (R87, R93,
R95, R103, R104). -/
def Obligations.DnopIsEmptyAndTwoWordInstructionsAwait : Prop :=
  ∀ (a : BitVec 9) (b : BitVec 11) (c : BitVec 8) (s : State),
    exec (.djmpAbs a) s = .next { s with ctlPend := some .djmpAbs } ∧
    exec (.djmpAbsVt11 b) s = .next { s with ctlPend := some .djmpAbs } ∧
    exec (.djsrAbs a) s = .next { s with ctlPend := some .djsrAbs } ∧
    exec (.lassoc c) s = .next { s with ctlPend := some .lassoc } ∧
    exec (.dnop c) s = .next s ∧ exec (.dnopVt11 b) s = .next s

/-- A fetched word that is awaited as an operand is not class-tested: it is the jump target, the call target or the
associative name, and nothing is awaited any more. A target is the operand's address, bit 0 cleared, plus the
relocation, modulo the address space; an address is bits 15 to 1 of the word and a name bits 10 to 0 (R44, R59, R77,
R93, R95, R97, R103). The model's choices: a name is taken modulo `2^NAME_BITS` (log 1); under a replaced encoding the
first word is held, and its row's instruction runs on both words, these four acting on the number that the row reads
from them, a negative one, which the spec's tables do not have, taken as 0 (log 18). -/
def Obligations.AwaitedWordIsTheOperand : Prop :=
  (∀ (w : Word) (s t : State) (target : Nat), t = { s with ctlPend := none } →
    target = (w.toNat / 2 * 2 + s.regs.reloc) % 2 ^ s.cfg.addrBits →
    (s.ctlPend = some .djmpAbs → dispatchWord w s = .next { t with dpc := target }) ∧
    (s.ctlPend = some .lassoc → dispatchWord w s = .next { t with
      regs := { s.regs with assoc := w.toNat % 2048 % 2 ^ s.cfg.nameBits } }) ∧
    (s.ctlPend = some .djsrAbs → ∀ h : 0 < s.sp.val,
      dispatchWord w s = .next { t with
        sp := ⟨s.sp.val - 1, by omega⟩, dpc := target,
        stk := s.stk.set (s.sp.val - 1) { dpc := s.dpc, name := s.regs.name, P := s.P } (by omega) }) ∧
    (s.ctlPend = some .djsrAbs → s.sp = 0 →
      dispatchWord w s = .next { t with
        flags := { s.flags with stackOver := true },
        pend := { s.pend with stackFault := s.pend.stackFault || s.regs.stackIntrEna } }) ∧
    ∀ (e : EncTable) (first : Word) (r : EncRow), s.cfg.encoding = .table e → e.row s.cfg.variant first = some r →
      s.ctlPend = some (.held first) → dispatchWord w s = execRow r [first, w] t) ∧
  ∀ (r : EncRow) (ws : List Word) (s : State) (x target : Nat), x = (operandVal ws r.operand).toNat →
    target = (x / 2 * 2 + s.regs.reloc) % 2 ^ s.cfg.addrBits →
    (r.op = .djmpAbs ∨ r.op = .djmpAbsVt11 → execRow r ws s = .next { s with dpc := target }) ∧
    (r.op = .lassoc → execRow r ws s = .next { s with regs := { s.regs with assoc := x % 2 ^ s.cfg.nameBits } }) ∧
    (r.op = .djsrAbs → execRow r ws s = .next (callSub target s)) ∧
    (r.op ∉ ([.djmpAbs, .djmpAbsVt11, .lassoc, .djsrAbs] : List Op) → execRow r ws s = exec (rowInstr r ws) s)

/-- DJMP-REL adds twice its signed displacement to the address of the next word, modulo the address space; DJSR-REL
pushes the return address, the name and the parameter set and jumps so; on a full stack its jump is not taken and only
the overflow flag and, where enabled, the request change (R94, R96, R97). -/
def Obligations.RelativeJumpsAndCalls : Prop :=
  ∀ (d : Int) (s : State) (target : Nat),
    target = (((s.dpc : Int) + 2 * d) % (2 ^ s.cfg.addrBits : Nat)).toNat →
    exec (.djmpRel d) s = .next { s with dpc := target } ∧
    (∀ h : 0 < s.sp.val, exec (.djsrRel d) s = .next { s with
      sp := ⟨s.sp.val - 1, by omega⟩, dpc := target,
      stk := s.stk.set (s.sp.val - 1) { dpc := s.dpc, name := s.regs.name, P := s.P } (by omega) }) ∧
    (s.sp = 0 → exec (.djsrRel d) s = .next { s with
      flags := { s.flags with stackOver := true },
      pend := { s.pend with stackFault := s.pend.stackFault || s.regs.stackIntrEna } })

/-- The pops load the DPC from the newest frame and move the pointer, DPOP-R also restores the name and the parameter
set and restarts the data item; on an empty stack only the underflow flag and, where enabled, the request change (R98,
R99, R100). -/
def Obligations.PopsReturnAndRestore : Prop :=
  ∀ (x : BitVec 8) (s : State),
    (∀ h : s.sp.val < 8,
      exec (.dpopNr x) s = .next { s with sp := ⟨s.sp.val + 1, by omega⟩, dpc := (s.stk[s.sp.val]).dpc } ∧
      exec (.dpopR x) s = .next { s with
        sp := ⟨s.sp.val + 1, by omega⟩, dpc := (s.stk[s.sp.val]).dpc,
        regs := { s.regs with name := (s.stk[s.sp.val]).name }, P := (s.stk[s.sp.val]).P, acc := [] }) ∧
    (s.sp = 8 → ∀ t, t = { s with
        flags := { s.flags with stackUnder := true },
        pend := { s.pend with stackFault := s.pend.stackFault || s.regs.stackIntrEna } } →
      exec (.dpopNr x) s = .next t ∧ exec (.dpopR x) s = .next t)

/-- A call and a restoring pop give the caller back its parameter set, its name, its stack pointer and the address after
the call, whatever the subroutine did to the live parameters and name in between (R97, R98, R100). -/
def Obligations.ReturnUndoesTheCall : Prop :=
  ∀ (d : Int) (x : BitVec 8) (s t : State) (p : ParamSet) (n : Nat), 0 < s.sp.val →
    exec (.djsrRel d) s = .next t →
    ∃ u, exec (.dpopR x) { t with P := p, regs := { t.regs with name := n } } = .next u ∧
      u.P = s.P ∧ u.regs = s.regs ∧ u.sp = s.sp ∧ u.dpc = s.dpc ∧ u.pos = s.pos ∧ u.flags = s.flags

/-- An unrecognized opcode puts the DPC back on its own word, modulo the address space, and hangs the processor; nothing
else changes (R105). -/
def Obligations.UnrecognizedOpcodeHangs : Prop :=
  ∀ (i : Instr) (s : State), isUnrecognized i = true →
    exec i s = .next { s with dpc := (((s.dpc : Int) - 2) % (2 ^ s.cfg.addrBits : Nat)).toNat, run := .hung }

/-! ## Graphic data -/

/-- SVECT and RELPOINT move by their deltas scaled, Z kept, and draw the vector or the end point; each item of a BSVECT
word moves by its own deltas scaled and draws the vector; the scale is in quarters on VS60 and 1 on VT11 (R66, R107,
R116, R122, R123). Under a replaced encoding the same holds of the operands that it reads from the words (log 18). -/
def Obligations.ShortItemsMoveByScaledDeltas : Prop :=
  (∀ (f : SvFields) (s : State) (np : Pt3), s.cfg.encoding = .spec → s.acc = [] →
    np = ⟨s.pos.x + scaled s (smag f.sx f.dx), s.pos.y + scaled s (smag f.sy f.dy), s.pos.z⟩ →
    exec (.svectData f) s = .next (vecItem np f.i s) ∧ exec (.relpointData f) s = .next (pointItem np f.i s)) ∧
  (∀ (i sx sy : Bool) (dx dy : BitVec 2) (s : State), s.cfg.encoding = .spec →
    bsvItem (BitVec.ofBool i ++ BitVec.ofBool sx ++ dx ++ BitVec.ofBool sy ++ dy) s =
      vecItem ⟨s.pos.x + scaled s (smag sx dx), s.pos.y + scaled s (smag sy dy), s.pos.z⟩ i s) ∧
  (∀ (m : Mode) (b : BitVec 7) (ws : List Word) (s : State) (np : Pt3),
    np = ⟨s.pos.x + scaled s (itemOperand s m ws 0), s.pos.y + scaled s (itemOperand s m ws 1), s.pos.z⟩ →
    (m = .svect → svectItem ws s = vecItem np (itemLit s m ws) s) ∧
    (m = .relpoint → relpointItem ws s = pointItem np (itemLit s m ws) s) ∧
    (m = .bsvect → ws = [b.setWidth 16] → bsvItem b s = vecItem np (itemLit s m ws) s)) ∧
  ∀ (s : State) (d : Int),
    scaled s d = if s.cfg.variant = .vs60 then Int.tdiv (d * (s.P.vscale.toNat : Int)) 4 else d

/-- The last word of an LVECT item, `g` the first and `h` the second of three, moves by the scaled deltas; that of an
ABSVEC item moves to the coordinates, sign-magnitude, unscaled; without Z words Z is kept; both draw the vector where
the first word intensifies (R65, R66, R117, R118, R125). Under a replaced encoding the same holds of the operands that
it reads from the words (log 18). -/
def Obligations.LongAndAbsoluteVectorsMoveAndDraw : Prop :=
  (∀ (g f : DeltaFields) (s : State), s.cfg.encoding = .spec → zWords s = false → s.acc = [g.toWord] →
    exec (.lvectData f) s = .next (vecItem
      ⟨s.pos.x + scaled s (smag g.s g.m), s.pos.y + scaled s (smag f.s f.m), s.pos.z⟩ g.i { s with acc := [] })) ∧
  (∀ (g h f : DeltaFields) (s : State), s.cfg.encoding = .spec → zWords s = true → s.acc = [g.toWord, h.toWord] →
    exec (.lvectData f) s = .next (vecItem
      ⟨s.pos.x + scaled s (smag g.s g.m), s.pos.y + scaled s (smag h.s h.m), s.pos.z + scaled s (smag f.s f.m)⟩ g.i
      { s with acc := [] })) ∧
  (∀ (g f : CoordFields) (s : State), s.cfg.encoding = .spec → s.cfg.variant = .vs60 → zWords s = false →
    s.acc = [g.toWord] →
    exec (.absvecData f) s = .next (vecItem ⟨smag g.s g.m, smag f.s f.m, s.pos.z⟩ g.i { s with acc := [] })) ∧
  (∀ (g h f : CoordFields) (s : State), s.cfg.encoding = .spec → zWords s = true → s.acc = [g.toWord, h.toWord] →
    exec (.absvecData f) s = .next (vecItem ⟨smag g.s g.m, smag h.s h.m, smag f.s f.m⟩ g.i { s with acc := [] })) ∧
  ∀ (ws : List Word) (s : State) (d a : Nat → Int), d = itemOperand s .lvect ws → a = itemOperand s .absvec ws →
    lvectItem ws s = vecItem ⟨s.pos.x + scaled s (d 0), s.pos.y + scaled s (d 1),
      s.pos.z + if zWords s then scaled s (d 2) else 0⟩ (itemLit s .lvect ws) s ∧
    absvecItem ws s = vecItem ⟨a 0, a 1, if zWords s then a 2 else s.pos.z⟩ (itemLit s .absvec ws) s

/-- The last word of a POINT item, `g` the first and `h` the second of three, moves to the coordinates, unsigned on
VT11 and sign-magnitude on VS60, and plots the point where the first word intensifies; GRAPHX takes X so from its word
and steps Y by the unscaled increment, GRAPHY the other way round, and both plot the point (R63, R66, R118, R120,
R121). Under a replaced encoding the same holds of the operands that it reads from the words (log 18). -/
def Obligations.PointAndGraphplotItemsMoveAndPlot : Prop :=
  (∀ (g f : CoordFields) (s : State), s.cfg.encoding = .spec → s.cfg.variant = .vt11 → s.acc = [g.toWord] →
    exec (.pointData f) s = .next (pointItem ⟨g.m.toNat, f.m.toNat, s.pos.z⟩ g.i { s with acc := [] })) ∧
  (∀ (g f : CoordFields) (s : State), s.cfg.encoding = .spec → s.cfg.variant = .vs60 → g.off = false →
    zWords s = false → s.acc = [g.toWord] →
    exec (.pointData f) s = .next (pointItem ⟨smag g.s g.m, smag f.s f.m, s.pos.z⟩ g.i { s with acc := [] })) ∧
  (∀ (g h f : CoordFields) (s : State), s.cfg.encoding = .spec → g.off = false → zWords s = true →
    s.acc = [g.toWord, h.toWord] →
    exec (.pointData f) s = .next (pointItem ⟨smag g.s g.m, smag h.s h.m, smag f.s f.m⟩ g.i { s with acc := [] })) ∧
  (∀ (f : CoordFields) (s : State) (v : Int), s.cfg.encoding = .spec → s.acc = [] →
    v = (match s.cfg.variant with
      | .vt11 => (f.m.toNat : Int)
      | .vs60 => smag f.s f.m) →
    exec (.graphxData f) s = .next (pointItem ⟨v, s.pos.y + s.regs.graphInc.toNat, s.pos.z⟩ f.i s) ∧
    exec (.graphyData f) s = .next (pointItem ⟨s.pos.x + s.regs.graphInc.toNat, v, s.pos.z⟩ f.i s)) ∧
  ∀ (ws : List Word) (s : State) (a : Nat → Int), a = itemOperand s .point ws →
    (isOffsetItem s .point ws = false →
      pointModeItem ws s = pointItem ⟨a 0, a 1, if zWords s then a 2 else s.pos.z⟩ (itemLit s .point ws) s) ∧
    graphxItem ws s = pointItem ⟨itemOperand s .graphx ws 0, s.pos.y + s.regs.graphInc.toNat, s.pos.z⟩
      (itemLit s .graphx ws) s ∧
    graphyItem ws s = pointItem ⟨s.pos.x + s.regs.graphInc.toNat, itemOperand s .graphy ws 0, s.pos.z⟩
      (itemLit s .graphy ws) s

/-- The last word of an OFFSET item, `g` the first and `h` the second of three, loads the offsets, Z only where the
item has a Z word; nothing moves, is drawn or is reported (R119). Under a replaced encoding the same holds of the
operands that it reads from the words, its bit of the first word telling OFFSET (log 18). -/
def Obligations.OffsetItemsLoadTheOffsets : Prop :=
  (∀ (g f : CoordFields) (s : State), s.cfg.encoding = .spec → s.cfg.variant = .vs60 → g.off = true →
    zWords s = false → s.acc = [g.toWord] →
    exec (.offsetData f) s = .next { s with off := ⟨smag g.s g.m, smag f.s f.m, s.off.z⟩, acc := [] }) ∧
  (∀ (g h f : CoordFields) (s : State), s.cfg.encoding = .spec → g.off = true → zWords s = true →
    s.acc = [g.toWord, h.toWord] →
    exec (.offsetData f) s = .next { s with off := ⟨smag g.s g.m, smag h.s h.m, smag f.s f.m⟩, acc := [] }) ∧
  ∀ (ws : List Word) (s : State) (a : Nat → Int), a = itemOperand s .point ws → isOffsetItem s .point ws = true →
    pointModeItem ws s = { s with off := ⟨a 0, a 1, if zWords s then a 2 else s.off.z⟩ }

/-- The last word of a CIRCLE item draws the arc from the position about the scaled centre delta to the scaled end
delta, moves to its end point and reports it, and raises no edge event (R65, R124). Under a replaced encoding the same
holds of the operands that it reads from the words (log 18). -/
def Obligations.CircleItemsDrawTheArc : Prop :=
  (∀ (a b c f : DeltaFields) (s u : State) (np : Pt3) (run : List Pixel),
    s.cfg.encoding = .spec → zWords s = false → s.acc = [a.toWord, b.toWord, c.toWord] →
    np = ⟨s.pos.x + scaled s (smag c.s c.m), s.pos.y + scaled s (smag f.s f.m), s.pos.z⟩ →
    u = { s with acc := [], pos := np, rpt := displayed s np } →
    run = pixelRun s (arcPoints s.cfg (viewport s) (displayed s s.pos)
      (addPt (displayed s s.pos) ⟨scaled s (smag a.s a.m), scaled s (smag b.s b.m), 0⟩) (displayed s np)) a.i →
    exec (.circleData f) s = .next (drawRun none false run u)) ∧
  (∀ (a b c d e f : DeltaFields) (s u : State) (np : Pt3) (run : List Pixel),
    s.cfg.encoding = .spec → zWords s = true →
    s.acc = [a.toWord, b.toWord, c.toWord, d.toWord, e.toWord] →
    np = ⟨s.pos.x + scaled s (smag d.s d.m), s.pos.y + scaled s (smag e.s e.m), s.pos.z + scaled s (smag f.s f.m)⟩ →
    u = { s with acc := [], pos := np, rpt := displayed s np } →
    run = pixelRun s (arcPoints s.cfg (viewport s) (displayed s s.pos)
      (addPt (displayed s s.pos) ⟨scaled s (smag a.s a.m), scaled s (smag b.s b.m), scaled s (smag c.s c.m)⟩)
      (displayed s np)) a.i →
    exec (.circleData f) s = .next (drawRun none false run u)) ∧
  ∀ (ws : List Word) (s : State) (d : Nat → Int) (k : Nat) (np q : Pt3),
    d = (fun n => scaled s (itemOperand s .circle ws n)) → k = (if zWords s then 3 else 2) →
    np = ⟨s.pos.x + d k, s.pos.y + d (k + 1), s.pos.z + if zWords s then d 5 else 0⟩ →
    q = addPt (displayed s s.pos) ⟨d 0, d 1, if zWords s then d 2 else 0⟩ →
    circleItem ws s = drawRun none false
      (pixelRun s (arcPoints s.cfg (viewport s) (displayed s s.pos) q (displayed s np)) (itemLit s .circle ws))
      { s with pos := np, rpt := displayed s np }

/-- A word that does not complete its item is kept and nothing else changes; one that does runs the item on as many
words as it has, and a word beyond them, where the item's length has shrunk under it, is discarded: in LVECT, ABSVEC,
POINT, OFFSET and CIRCLE. The lengths of the spec's encoding are those of R51 (R51, R106); a replaced encoding gives
its own, which may differ for OFFSET and POINT, and each operand's bits and form: the model's reading of R5 (log 18). -/
def Obligations.WordsOfAnItemAreAssembled : Prop :=
  (∀ (i : Instr) (m : Mode) (item : List Word → State → State) (s : State) (ws : List Word) (n : Nat),
    (∃ (a : SvFields) (f : DeltaFields) (g : CoordFields), (i, m, item) ∈ ([(.svectData a, .svect, svectItem),
      (.relpointData a, .relpoint, relpointItem), (.lvectData f, .lvect, lvectItem),
      (.circleData f, .circle, circleItem), (.pointData g, .point, pointModeItem),
      (.offsetData g, .point, pointModeItem), (.graphxData g, .graphx, graphxItem),
      (.graphyData g, .graphy, graphyItem), (.absvecData g, .absvec, absvecItem)]
      : List (Instr × Mode × (List Word → State → State)))) →
    ws = s.acc ++ [encode i] → n = itemWords s m ws →
    (ws.length < n → exec i s = .next { s with acc := ws }) ∧
    (n ≤ ws.length → exec i s = .next (item (ws.take n) { s with acc := [] }))) ∧
  (∀ (f : DeltaFields) (g : CoordFields) (a b c d e : Word) (s t : State),
    s.cfg.encoding = .spec → zWords s = false → t = { s with acc := [] } →
    (s.acc = [a, b] →
      exec (.lvectData f) s = .next (lvectItem [a, b] t) ∧ exec (.absvecData g) s = .next (absvecItem [a, b] t) ∧
      exec (.pointData g) s = .next (pointModeItem [a, b] t) ∧
      exec (.offsetData g) s = .next (pointModeItem [a, b] t)) ∧
    (s.acc = [a, b, c, d] ∨ s.acc = [a, b, c, d, e] → exec (.circleData f) s = .next (circleItem [a, b, c, d] t))) ∧
  ∀ (s : State) (m : Mode) (ws : List Word) (k : Nat),
    (s.cfg.encoding = .spec → itemWords s m ws =
      if m = .lvect ∨ m = .point ∨ m = .absvec then (if zWords s then 3 else 2)
      else if m = .circle then (if zWords s then 6 else 4) else 1) ∧
    ∀ e f, s.cfg.encoding = .table e → f = e.item m (isOffsetItem s m ws) →
      itemWords s m ws = max 1 (if zWords s then f.wordsZ else f.words) ∧ itemLit s m ws = refBit ws f.lit ∧
      ∀ o, (if zWords s then f.operandsZ else f.operands)[k]? = some o → itemOperand s m ws k = operandVal ws o

/-- The two items of a CHAR or BSVECT word: the second runs in the same cycle unless the first latched a request, when
it is held for a later cycle, and is discarded where the first ended character processing (R79, R106, R115, R123).
Which bits of the word are the two items the encoding says (R60, R64; log 18). -/
def Obligations.PairWordsRunTheirTwoItems : Prop :=
  (∀ (f : CharFields) (s : State) (b0 b1 : BitVec 7), charPair s.cfg.encoding f = (b0, b1) →
    ((charItem b0 s).2 = true → exec (.charData f) s = .next (charItem b0 s).1) ∧
    ((charItem b0 s).2 = false → (charItem b0 s).1.pend = noPend →
      exec (.charData f) s = .next (charItem b1 (charItem b0 s).1).1) ∧
    ((charItem b0 s).2 = false → (charItem b0 s).1.pend ≠ noPend →
      exec (.charData f) s = .next { (charItem b0 s).1 with pendHalf := some ⟨.char, b1⟩ })) ∧
  (∀ (f : BsvFields) (s : State) (b0 b1 : BitVec 7), bsvectPair s.cfg.encoding f = (b0, b1) →
    ((bsvItem b0 s).pend = noPend → exec (.bsvectData f) s = .next (bsvItem b1 (bsvItem b0 s))) ∧
    ((bsvItem b0 s).pend ≠ noPend →
      exec (.bsvectData f) s = .next { bsvItem b0 s with pendHalf := some ⟨.bsvect, b1⟩ })) ∧
  (∀ (f : CharFields) (g : BsvFields), charPair .spec f = (f.c0, f.c1) ∧ bsvectPair .spec g = (g.b0, g.b1)) ∧
  (∀ (b : BitVec 7) (s : State),
    halfStep ⟨.char, b⟩ s = (charItem b { s with pendHalf := none }).1 ∧
    halfStep ⟨.bsvect, b⟩ s = bsvItem b { s with pendHalf := none })

/-- Every data word answers a next state. What it may change: a word of a mode of one item a word or more, the item's
words and what drawing may change, a word in POINT mode the offsets too; a BSVECT word the held half and what drawing
may change; a CHAR word the held half, the shift, the character fault and what drawing may change, and, on the VS60
with the escape enabled and the terminate code in one of its halves, also what a restoring pop changes (R87, R106,
R138, R159, R163). -/
def Obligations.DataWordsChangeOnlyWhatDrawingMay : Prop :=
  (∀ (i : Instr) (s : State),
    (∃ (a : SvFields) (d : DeltaFields) (c : CoordFields), i ∈ ([.svectData a, .relpointData a, .lvectData d,
      .circleData d, .graphxData c, .graphyData c, .absvecData c] : List Instr)) →
    ∃ t, exec i s = .next t ∧ Drawn { s with acc := t.acc } t) ∧
  (∀ (f : CoordFields) (s : State), ∃ t, exec (.pointData f) s = .next t ∧ exec (.offsetData f) s = .next t ∧
    Drawn { s with acc := t.acc, off := t.off } t) ∧
  (∀ (f : BsvFields) (s : State), ∃ t, exec (.bsvectData f) s = .next t ∧
    Drawn { s with pendHalf := t.pendHalf } t) ∧
  (∀ (f : CharFields) (s : State), ∃ t, exec (.charData f) s = .next t ∧
    (s.cfg.variant = .vt11 ∨ s.P.charEsc = false ∨ ((charPair s.cfg.encoding f).1 ≠ s.regs.termChar ∧
        (charPair s.cfg.encoding f).2 ≠ s.regs.termChar) →
      Drawn { s with pendHalf := t.pendHalf, regs := { s.regs with so := t.regs.so },
                     flags := { s.flags with charFault := t.flags.charFault },
                     pend := { s.pend with charFault := t.pend.charFault } } t) ∧
    Drawn { s with pendHalf := t.pendHalf, regs := { s.regs with so := t.regs.so, name := t.regs.name },
                   sp := t.sp, dpc := t.dpc, P := t.P, acc := t.acc,
                   flags := { s.flags with charFault := t.flags.charFault, stackUnder := t.flags.stackUnder },
                   pend := { s.pend with charFault := t.pend.charFault, stackFault := t.pend.stackFault } } t)

/-! ## Characters -/

/-- The codes of a character item that is neither the terminate character nor faulted: the three moves, the two
shifts, the codes ignored unless shifted out, and the printing codes; and the advance and line height of the default
cell (R137, R139, R140). That SO, SI and an ignored code leave the report coordinates, where R27 and D53 speak of
every control code, is the model's reading (log 22). -/
def Obligations.CharacterCodesMoveShiftOrPrint : Prop :=
  (∀ (b : BitVec 7) (s : State), charFaultHolds b s = false →
    (s.cfg.variant = .vt11 ∨ s.P.charEsc = false ∨ b ≠ s.regs.termChar) →
    (∀ np, np = (if rotated s then ⟨s.pos.x, s.pos.y - charAdvance s, s.pos.z⟩
        else (⟨s.pos.x - charAdvance s, s.pos.y, s.pos.z⟩ : Pt3)) →
      b = 0o010 → charItem b s = ({ s with pos := np, rpt := displayed s np }, false)) ∧
    (∀ np, np = (if rotated s then ⟨s.pos.x + lineHeight s, s.pos.y, s.pos.z⟩
        else (⟨s.pos.x, s.pos.y - lineHeight s, s.pos.z⟩ : Pt3)) →
      b = 0o012 → charItem b s = ({ s with pos := np, rpt := displayed s np }, false)) ∧
    (∀ np, np = (if rotated s then ⟨s.pos.x, 0, s.pos.z⟩ else (⟨0, s.pos.y, s.pos.z⟩ : Pt3)) →
      b = 0o015 → charItem b s = ({ s with pos := np, rpt := displayed s np }, false)) ∧
    (b = 0o016 → charItem b s = ({ s with regs := { s.regs with so := true } }, false)) ∧
    (b = 0o017 → charItem b s = ({ s with regs := { s.regs with so := false } }, false)) ∧
    (b.toNat < 0o040 → b ∉ ([0o010, 0o012, 0o015, 0o016, 0o017] : List (BitVec 7)) →
      charItem b s = (if s.regs.so then glyph .alt b s else s, false)) ∧
    (0o040 ≤ b.toNat → charItem b s = (glyph .main b s, false))) ∧
  (∀ s : State, s.cfg.cw = 14 → s.cfg.lh = 24 →
    (s.cfg.variant = .vs60 ∧ s.cfg.renderer = .stroke →
      charAdvance s = 7 * (s.P.csIndex.toNat + 1) ∧ lineHeight s = 12 * (s.P.csIndex.toNat + 1)) ∧
    (s.cfg.variant = .vt11 ∨ s.cfg.renderer = .dotMatrix → charAdvance s = 14 ∧ lineHeight s = 24))

/-- A glyph always advances the position and reports the next origin; it is drawn whole where both origins are
on-screen, and raises the edge event of a character, where enabled, where exactly one is. A dot glyph's points are the
pairs of adjacent points of its dots, slanted in italics, the rows upward and in each the columns left to right. A
stroke glyph's points are those of the lines of its visible strokes, in order: the pen's place after `k` strokes is
the sum of their deltas, slanted in italics, scaled, rounded and, where characters are rotated, turned (R141, R144,
R145). -/
def Obligations.GlyphsAdvanceAndAreDrawnWholeOrNot : Prop :=
  (∀ (set : CharSet) (b : BitVec 7) (s u : State) (np o o' : Pt3) (v : Viewport), v = viewport s →
    np = (if rotated s then ⟨s.pos.x, s.pos.y + charAdvance s, s.pos.z⟩
      else ⟨s.pos.x + charAdvance s, s.pos.y, s.pos.z⟩) →
    o = displayed s s.pos → o' = displayed s np → u = { s with pos := np, rpt := o' } →
    (inViewport v o = true ∧ inViewport v o' = true → glyph set b s = glyphDraw (glyphPoints s set b o) u) ∧
    (inViewport v o = true ∧ inViewport v o' = false → edgesOn s = true → glyph set b s = edgeEvent o true u) ∧
    (inViewport v o = false ∧ inViewport v o' = true → edgesOn s = true → glyph set b s = edgeEvent o' false u) ∧
    (inViewport v o ≠ inViewport v o' → edgesOn s = false → glyph set b s = u) ∧
    (inViewport v o = false ∧ inViewport v o' = false → glyph set b s = u)) ∧
  (∀ (set : CharSet) (b : BitVec 7) (s : State) (o : Pt3) (x y : Nat → Nat → Int), s.cfg.renderer = .dotMatrix →
    x = (fun (row col : Nat) => o.x + 2 * (col : Int) + if s.P.italics then (row : Int) else 0) →
    y = (fun (row _ : Nat) => o.y + 2 * (row : Int)) →
    glyphPoints s set b o = (List.range 8).flatMap fun row => (List.range 6).flatMap fun col =>
      if (dotGlyph s.cfg set b).getLsbD (6 * row + col) then
        [⟨x row col, y row col, o.z⟩, ⟨x row col + 1, y row col, o.z⟩]
      else []) ∧
  ∀ (set : CharSet) (b : BitVec 7) (s : State) (o : Pt3) (g : List Stroke) (scale2 : Int) (half : Int → Int)
      (U V u v : Nat → Int) (pen : Nat → Pt3), s.cfg.renderer = .stroke → g = strokeGlyph s.cfg set b →
    scale2 = (if s.cfg.variant = .vs60 then (s.P.csIndex.toNat : Int) + 1 else 2) →
    half = (fun a => a.sign * (((a.natAbs + 1) / 2 : Nat) : Int)) →
    U = (fun k => ((g.take k).map Stroke.du).sum) → V = (fun k => ((g.take k).map Stroke.dv).sum) →
    u = (fun k => half (scale2 * (U k + if s.P.italics then Int.tdiv (V k) 4 else 0))) →
    v = (fun k => half (scale2 * V k)) →
    pen = (fun k => if s.cfg.variant = .vs60 ∧ s.P.rotate = true then ⟨o.x - v k, o.y + u k, o.z⟩
      else ⟨o.x + u k, o.y + v k, o.z⟩) →
    glyphPoints s set b o =
      g.zipIdx.flatMap fun q => if q.1.vis then raster s.cfg (pen q.2) (pen (q.2 + 1)) else []

/-- A glyph is one unit for the light pen: all its pixels are lit, and the first hit, if the pen is enabled, is the one
reported (R142). -/
def Obligations.GlyphIsOneUnitForTheLightPen : Prop :=
  ∀ (pts : List Pt3) (s : State) (run : List Pixel),
    run = (if lit s true then pts.map (pixelAt s) else []) →
    ((s.P.lpIntrEna = false ∨ ∀ p ∈ run, penHits s p = false) → glyphDraw pts s = lightAll run s) ∧
    (∀ pre p post, s.P.lpIntrEna = true → run = pre ++ p :: post → (∀ q ∈ pre, penHits s q = false) →
      penHits s p = true → glyphDraw pts s = lightPenHit ⟨p.x, p.y, p.z⟩ (lightAll run s))

/-- A terminate character acts as DPOP-R: in the first half it discards the second, in the second half it follows the
first; the character is not drawn (R138). Whatever the character fault's condition: that the terminate test comes before
the fault test is the model's choice (log 9). -/
def Obligations.TerminateCharacterReturns : Prop :=
  ∀ (f : CharFields) (s : State) (b0 b1 : BitVec 7), charPair s.cfg.encoding f = (b0, b1) →
    s.cfg.variant = .vs60 → s.P.charEsc = true →
    (b0 = s.regs.termChar → exec (.charData f) s = exec (.dpopR 0) s) ∧
    (∀ t, b0 ≠ s.regs.termChar → b1 = s.regs.termChar → charItem b0 s = (t, false) → t.pend = noPend →
      exec (.charData f) s = exec (.dpopR 0) t)

/-- A character item for which the fault's condition holds, and which does not terminate, sets its flag, latches its
request and lights nothing; but for the drawing it has moved the position, reported and shifted as its code does
(R137, R139, R141, R159, R162). The model's choices (log 9): the order of the tests, that a code that does not move
reports its position, and that a free value says whether a printing code of which exactly one origin is on-screen
raises the edge event. By default the condition never holds. -/
def Obligations.FaultedCharacterIsNotDrawn : Prop :=
  (∀ (b : BitVec 7) (s t u : State) (prints so : Bool) (move : Int → Int → Pt3) (np o o' : Pt3) (v : Viewport),
    charFaultHolds b s = true → terminates b s = false → t = (charItem b s).1 → v = viewport s →
    prints = (decide (0o040 ≤ b.toNat) ||
      s.regs.so && !([0o010, 0o012, 0o015, 0o016, 0o017] : List (BitVec 7)).contains b) →
    so = (if b = 0o016 then true else if b = 0o017 then false else s.regs.so) →
    move = (fun a l => if rotated s then ⟨s.pos.x + l, s.pos.y + a, s.pos.z⟩ else ⟨s.pos.x + a, s.pos.y - l, s.pos.z⟩) →
    np = (if b = 0o010 then move (-charAdvance s) 0
      else if b = 0o012 then move 0 (lineHeight s)
      else if b = 0o015 then (if rotated s then ⟨s.pos.x, 0, s.pos.z⟩ else ⟨0, s.pos.y, s.pos.z⟩)
      else if prints then move (charAdvance s) 0
      else s.pos) →
    o = displayed s s.pos → o' = displayed s np →
    u = { s with flags := { s.flags with charFault := true }, pend := { s.pend with charFault := true },
                 pos := np, rpt := o', regs := { s.regs with so := so } } →
    (charItem b s).2 = false ∧
    (t = u ∨ (prints = true ∧ edgesOn s = true ∧ inViewport v o ≠ inViewport v o' ∧
      t = { u with rpt := if inViewport v o then o else o',
                   flags := { u.flags with edgeFlag := true, edgeExit := inViewport v o },
                   pend := { u.pend with edgeTransition := true } }))) ∧
  ∀ (b : BitVec 7) (s : State), s.cfg.charFault = .never → charFaultHolds b s = false

/-! ## Drawing -/

/-- A vector item moves, reports the new displayed position and draws the visible part of the segment by its clip tag;
an entry with edge events enabled draws nothing yet but raises the entry and keeps the run. A point item moves, reports
and plots its point where it lies in the viewport. Edge events are those of the VS60 with the edge interrupt enabled. A
displayed position is the position plus the offsets, Z 0 on VT11.
The viewport is the visible area, but for what a menu flag does under another `menuEffect` (log 19) (R22, R112,
R113, R114, R126, R127). -/
def Obligations.VectorAndPointItemsFollowTheClipTag : Prop :=
  (∀ (np p0 p1 : Pt3) (i : Bool) (s u : State),
    p0 = displayed s s.pos → p1 = displayed s np → u = { s with pos := np, rpt := p1 } →
    (clip (viewport s) p0 p1 = none → vecItem np i s = u) ∧
    ∀ q0 q1 run, run = pixelRun s (raster s.cfg q0 q1) i →
      (clip (viewport s) p0 p1 = some ⟨.visibleUnclipped, q0, q1⟩ → vecItem np i s = drawRun none false run u) ∧
      (clip (viewport s) p0 p1 = some ⟨.clippedExit, q0, q1⟩ →
        vecItem np i s = drawRun (if edgesOn s then some q1 else none) false run u) ∧
      (clip (viewport s) p0 p1 = some ⟨.clippedEntry, q0, q1⟩ →
        vecItem np i s = if edgesOn s then { edgeEvent q0 false u with clipPend := some ⟨run, none⟩ }
          else drawRun none false run u) ∧
      (clip (viewport s) p0 p1 = some ⟨.clippedBoth, q0, q1⟩ →
        vecItem np i s = if edgesOn s then { edgeEvent q0 false u with clipPend := some ⟨run, some q1⟩ }
          else drawRun none false run u)) ∧
  (∀ (np p : Pt3) (i : Bool) (s u : State), p = displayed s np → u = { s with pos := np, rpt := p } →
    pointItem np i s = if inViewport (viewport s) p then drawRun none false (pixelRun s [p] i) u else u) ∧
  (∀ s : State, edgesOn s = true ↔ s.cfg.variant = .vs60 ∧ s.P.edgeIntrEna = true) ∧
  (∀ (s : State) (p : Pt3), displayed s p =
    ⟨p.x + s.off.x, p.y + s.off.y, if s.cfg.variant = .vs60 then p.z + s.off.z else 0⟩) ∧
  ∀ s : State, s.cfg.menuEffect = .reference ∨ s.cfg.variant = .vt11 ∨ s.regs.menu = false →
    ∀ p, inViewport (viewport s) p = true ↔ 0 ≤ p.x ∧ p.x ≤ s.cfg.xEdge ∧ 0 ≤ p.y ∧ p.y ≤ s.cfg.yEdge

/-- Lighting a run: where no hit is acted on, every pixel is lit and the exit edge event, if any, follows; else the
pixels up to the first hit are lit, the hit is reported, and the rest and the exit are kept. A hit acted on and an edge
event report their point, set their flags and latch their requests. The clipped remainder of a vector is such a run, no
longer held (R80, R111, R112). -/
def Obligations.RunsStopAtTheFirstHitActedOn : Prop :=
  (∀ (exit : Option Pt3) (masked : Bool) (run : List Pixel) (s : State),
    (masked = true ∨ s.P.lpIntrEna = false ∨ ∀ p ∈ run, penHits s p = false) →
    drawRun exit masked run s =
      match exit with
      | none => lightAll run s
      | some q => edgeEvent q true (lightAll run s)) ∧
  (∀ (exit : Option Pt3) (pre post : List Pixel) (p : Pixel) (s : State),
    s.P.lpIntrEna = true → (∀ q ∈ pre, penHits s q = false) → penHits s p = true →
    drawRun exit false (pre ++ p :: post) s =
      { lightPenHit ⟨p.x, p.y, p.z⟩ (lightAll (pre ++ [p]) s) with lpCont := some ⟨post, exit⟩ }) ∧
  (∀ (c : Cont) (s : State), clipStep c s = drawRun c.exit false c.run { s with clipPend := none }) ∧
  ∀ (q : Pt3) (b : Bool) (s : State),
    lightPenHit q s = { s with
      flags := { s.flags with lpFlag := true }, rpt := q, pend := { s.pend with lightPenHit := true } } ∧
    edgeEvent q b s = { s with
      flags := { s.flags with edgeFlag := true, edgeExit := b }, rpt := q,
      pend := { s.pend with edgeTransition := true } }

/-- An item that is not lit (not intensified, blinked off, or console 0 disabled) still moves, and lights nothing and
hits nothing (R108). -/
def Obligations.UnlitItemsLightNothing : Prop :=
  ∀ (i : Bool) (s : State),
    (i = false ∨ (s.P.blinkEna = true ∧ s.blinkOn = false) ∨ s.regs.cons0 = false) →
    ∀ (np dc de : Pt3) (t : State), t = vecItem np i s ∨ t = pointItem np i s ∨ (t = arcItem dc de i s ∧
        np = ⟨s.pos.x + de.x, s.pos.y + de.y, s.pos.z + de.z⟩) →
      t.ph = s.ph ∧ t.out = s.out ∧ t.pend.lightPenHit = s.pend.lightPenHit ∧ t.flags.lpFlag = s.flags.lpFlag ∧
      t.lpCont = s.lpCont ∧ t.pos = np

/-- A primitive is lit where it intensifies, blink does not put it out and console 0 is enabled. A lit primitive's run
holds the raster points whose line-style counter, 0 at the first point and 5 bits wide, the dash pattern lights, in
order, each at the set intensity or, on a VS60 that cues depth, at the intensity of its Z; and the default patterns
and depth cue are the spec's (R108, R109, R110, R134). -/
def Obligations.DashedRunsFollowTheCounter : Prop :=
  (∀ (s : State) (i : Bool), lit s i = (i && !(s.P.blinkEna && !s.blinkOn) && s.regs.cons0)) ∧
  (∀ (s : State) (pts : List Pt3), lit s true = true →
    pixelRun s pts true =
      ((pts.zipIdx.filter fun q => dashOn s.cfg s.P.lineType q.2).map fun q => pixelAt s q.1)) ∧
  (∀ (s : State) (p : Pt3), pixelAt s p = ⟨p.x, p.y, p.z,
    if s.cfg.variant = .vs60 ∧ s.P.depthCue = true then depthCue s.cfg s.P.intensity p.z else s.P.intensity,
    s.regs.color⟩) ∧
  (∀ (i : BitVec 3) (z : Int),
    ((depthCue defaultParams i z).toNat : Int) = min 7 (max 0 ((i.toNat : Int) + Int.fdiv z 128))) ∧
  (∀ (c : Params) (t : LineType) (k : Nat), dashOn c t (k + 32) = dashOn c t k) ∧
  (∀ k : Nat, k < 32 →
    dashOn defaultParams .solid k = true ∧ dashOn defaultParams .longDash k = decide (k < 24) ∧
    dashOn defaultParams .shortDash k = decide (k % 8 < 4) ∧
    dashOn defaultParams .dotDash k = (decide (k % 16 < 8) || decide (k % 16 = 12)))

/-- The clipper, for any viewport: two inside points are accepted unchanged; a segment is invisible exactly where no
point of it, the exact point at a parameter `n/d` between 0 and 1, lies in the viewport; otherwise the tag says which
end points were outside; an end point inside stays, and one outside becomes the point at the least parameter, for the
first, or the greatest, for the second, whose exact point lies in the viewport, each coordinate rounded toward the
first end point; and both ends of every visible part lie in the viewport (R129, R130, R131). -/
def Obligations.ClippedEndPointsLieInTheViewport : Prop :=
  ∀ (v : Viewport) (p0 p1 : Pt3) (inside : Int → Int → Prop) (pointAt : Int → Int → Pt3),
    inside = (fun n d => 0 < d ∧ 0 ≤ n ∧ n ≤ d ∧
      d * v.xMin ≤ d * p0.x + n * (p1.x - p0.x) ∧ d * p0.x + n * (p1.x - p0.x) ≤ d * v.xMax ∧
      d * v.yMin ≤ d * p0.y + n * (p1.y - p0.y) ∧ d * p0.y + n * (p1.y - p0.y) ≤ d * v.yMax) →
    pointAt = (fun n d => ⟨p0.x + Int.tdiv (n * (p1.x - p0.x)) d, p0.y + Int.tdiv (n * (p1.y - p0.y)) d,
      p0.z + Int.tdiv (n * (p1.z - p0.z)) d⟩) →
    (inViewport v p0 = true → inViewport v p1 = true → clip v p0 p1 = some ⟨.visibleUnclipped, p0, p1⟩) ∧
    (clip v p0 p1 ≠ none ↔ ∃ n d, inside n d) ∧
    ∀ r, clip v p0 p1 = some r →
      inViewport v r.q0 = true ∧ inViewport v r.q1 = true ∧
      (inViewport v p0 = true → r.q0 = p0) ∧ (inViewport v p1 = true → r.q1 = p1) ∧
      (inViewport v p0 = false → ∃ n d, inside n d ∧ (∀ m e, inside m e → n * e ≤ m * d) ∧ r.q0 = pointAt n d) ∧
      (inViewport v p1 = false → ∃ n d, inside n d ∧ (∀ m e, inside m e → m * d ≤ n * e) ∧ r.q1 = pointAt n d) ∧
      (inViewport v p0 = false ↔ (r.tag = .clippedEntry ∨ r.tag = .clippedBoth)) ∧
      (inViewport v p1 = false ↔ (r.tag = .clippedExit ∨ r.tag = .clippedBoth))

/-- Whatever the rasterizer, a line keeps the properties of R133: the number of points, the end points, steps of one
along the major axis and none or one along the minor, and the bounding box in X, Y and Z; and the reference rasterizer
gives the points of R132. A zero-length line is its first point alone, whatever its two Z values: the model's choice
(log 7). -/
def Obligations.RasterLinesKeepTheirProperties : Prop :=
  ∀ (c : Params) (q0 q1 : Pt3) (n : Nat), n = max (q1.x - q0.x).natAbs (q1.y - q0.y).natAbs →
    (raster c q0 q1).length = n + 1 ∧ (raster c q0 q1).head? = some q0 ∧
    (0 < n → (raster c q0 q1).getLast? = some q1) ∧
    (∀ (k : Nat) (a b : Pt3), (raster c q0 q1)[k]? = some a → (raster c q0 q1)[k + 1]? = some b →
      ((q1.y - q0.y).natAbs ≤ (q1.x - q0.x).natAbs →
        b.x - a.x = (q1.x - q0.x).sign ∧ (b.y = a.y ∨ b.y - a.y = (q1.y - q0.y).sign)) ∧
      ((q1.x - q0.x).natAbs < (q1.y - q0.y).natAbs →
        b.y - a.y = (q1.y - q0.y).sign ∧ (b.x = a.x ∨ b.x - a.x = (q1.x - q0.x).sign))) ∧
    (∀ p ∈ raster c q0 q1,
      min q0.x q1.x ≤ p.x ∧ p.x ≤ max q0.x q1.x ∧ min q0.y q1.y ≤ p.y ∧ p.y ≤ max q0.y q1.y ∧
      min q0.z q1.z ≤ p.z ∧ p.z ≤ max q0.z q1.z) ∧
    (c.rasterize = .reference → 0 < n → ∀ k, k ≤ n → (raster c q0 q1)[k]? = some
      (if (q1.y - q0.y).natAbs ≤ (q1.x - q0.x).natAbs then
        ⟨q0.x + (q1.x - q0.x).sign * (k : Int),
          q0.y + (q1.y - q0.y).sign * ((2 * (k : Int) * ((q1.y - q0.y).natAbs : Int) + n) / (2 * n)),
          q0.z + Int.tdiv ((q1.z - q0.z) * (k : Int)) n⟩
      else
        ⟨q0.x + (q1.x - q0.x).sign * ((2 * (k : Int) * ((q1.x - q0.x).natAbs : Int) + n) / (2 * n)),
          q0.y + (q1.y - q0.y).sign * (k : Int), q0.z + Int.tdiv ((q1.z - q0.z) * (k : Int)) n⟩))

/-- Whatever the chord generator, an arc keeps the properties of R135: it runs from its start to its end in 1 to
`ARC_MAX` chords, every vertex within the larger radius plus 1 of the centre in X and in Y. The arc's points are those
of its chords in order, each clipped by itself, without the first point of a chord after the first that starts inside
the viewport (R136). -/
def Obligations.ArcVerticesKeepTheirProperties : Prop :=
  (∀ (c : Params) (p0 pc p1 : Pt3) (n : Int), 1 ≤ c.arcMax →
    n = max ((p0.x - pc.x) ^ 2 + (p0.y - pc.y) ^ 2) ((p1.x - pc.x) ^ 2 + (p1.y - pc.y) ^ 2) →
    (arcVertices c p0 pc p1).head? = some p0 ∧ (arcVertices c p0 pc p1).getLast? = some p1 ∧
    2 ≤ (arcVertices c p0 pc p1).length ∧ (arcVertices c p0 pc p1).length ≤ c.arcMax + 1 ∧
    ∀ v ∈ arcVertices c p0 pc p1,
      (|v.x - pc.x| ≤ 1 ∨ (|v.x - pc.x| - 1) ^ 2 ≤ n) ∧ (|v.y - pc.y| ≤ 1 ∨ (|v.y - pc.y| - 1) ^ 2 ≤ n)) ∧
  ∀ (c : Params) (v : Viewport) (p0 pc p1 : Pt3) (vs : List Pt3), vs = arcVertices c p0 pc p1 →
    arcPoints c v p0 pc p1 = (vs.zip vs.tail).zipIdx.flatMap fun q =>
      match clip v q.1.1 q.1.2 with
      | none => []
      | some r =>
        if 0 < q.2 ∧ (r.tag = .visibleUnclipped ∨ r.tag = .clippedExit) then (raster c r.q0 r.q1).drop 1
        else raster c r.q0 r.q1

/-! ## The phosphor engine -/

/-- Lighting a point on the grid sets its cell's level, decay steps, colour and next event, queues it once, at the
tail, shows its colour handle at decay step 0, and leaves every other cell; the answer is whether the point lies
within the light-pen radius of the pen; a point off the grid has no effect and no hit. The level is the intensity, but
for a cell lit at most one decay step ago, no brighter and in the same colour, under the brightening rule (R146, R148,
R149). -/
def Obligations.IlluminateLightsOneCell : Prop :=
  ∀ (x y : Int) (i : BitVec 3) (c : BitVec 1) (s : State), PhosphorOk s.ph →
    (onGrid s.ph x y = false → illuminate x y i c s = (s, false)) ∧
    (onGrid s.ph x y = true → ∀ k t, k = pointKey s.ph x y → t = (illuminate x y i c s).1 →
      (s.cfg.brighten = false → (cellAt t.ph k).level = i) ∧
      (s.cfg.brighten = true → ∀ e, e = cellAt s.ph k → (cellAt t.ph k).level.toNat =
        if 0 < e.ttl ∧ s.ph.profile.maxTtl - 1 ≤ e.ttl ∧ e.level.toNat ≤ i.toNat ∧ c = e.color then
          min 7 (max i.toNat (e.level.toNat + 1))
        else i.toNat) ∧
      (cellAt t.ph k).ttl = s.ph.profile.maxTtl ∧
      (cellAt t.ph k).color = c ∧ (cellAt t.ph k).next = s.ph.clock + s.ph.profile.stepTicks ∧
      (∀ j, j ≠ k → cellAt t.ph j = cellAt s.ph j) ∧
      t.ph.queue = (s.ph.queue.filter fun j => j != k) ++ [k] ∧
      t.out = .setPixel (k % gridWidth s.ph) (k / gridWidth s.ph) 
        (decayColor s.ph.profile (cellAt t.ph k).level 0 c) :: s.out ∧
      t = { s with ph := { s.ph with cells := t.ph.cells, queue := t.ph.queue }, out := t.out } ∧
      ((illuminate x y i c s).2 = true ↔ 0 < s.cfg.lpRadius ∧
        (x - s.ph.penX) ^ 2 + (y - s.ph.penY) ^ 2 ≤ (s.cfg.lpRadius : Int) ^ 2))

/-- Aging leaves no due event in the queue; a cell still lit keeps the time at which it will be dark; and a cell whose
time has come is dark, however the aging was divided. Every cell keeps its level and colour. The calls are one for
each decay step of each cell, in their order, showing the colour of its level, the steps since it was lit and its
colour, or Off where none is left, and one flush at the end. A cell lit at clock `t` has the time `t + maxTtl ·
stepTicks` (R148, R150, R152). -/
def Obligations.AgedCellsGoDarkOnTime : Prop :=
  (∀ (e : Nat) (s t : State) (k : Nat), PhosphorOk s.ph → t = age e s →
    (∀ j rest, t.ph.queue = j :: rest → t.ph.clock < (cellAt t.ph j).next) ∧
    (0 < (cellAt t.ph k).ttl → 0 < (cellAt s.ph k).ttl ∧ darkTime t.ph k = darkTime s.ph k) ∧
    (darkTime s.ph k ≤ s.ph.clock + e → (cellAt t.ph k).ttl = 0) ∧
    (cellAt t.ph k).level = (cellAt s.ph k).level ∧ (cellAt t.ph k).color = (cellAt s.ph k).color) ∧
  (∀ (e : Nat) (s t : State), PhosphorOk s.ph → t = age e s →
    ∃ calls, t.out = .flush :: (calls ++ s.out) ∧ (∀ o ∈ calls, ∃ cx cy color, o = .setPixel cx cy color) ∧
      ∀ (k cx cy : Nat) (c : Cell), cx = k % gridWidth s.ph → cy = k / gridWidth s.ph → c = cellAt s.ph k →
        (calls.filter (isPixelAt cx cy)).reverse = (List.range (c.ttl - (cellAt t.ph k).ttl)).map fun j =>
          .setPixel cx cy (if c.ttl - (j + 1) = 0 then .off
            else decayColor s.ph.profile c.level (s.ph.profile.maxTtl - (c.ttl - (j + 1))) c.color)) ∧
  (∀ (x y : Int) (i : BitVec 3) (c : BitVec 1) (s : State), PhosphorOk s.ph → onGrid s.ph x y = true →
    darkTime (illuminate x y i c s).1.ph (pointKey s.ph x y) =
      s.ph.clock + s.ph.profile.maxTtl * s.ph.profile.stepTicks)

/-- `Init` fails for an unknown profile, a scale of 0 or a refresh interval out of range, leaving the engine
uninitialized; else it selects the profile and scale, clears the grid, the queue and the pen, and sets the clock to 0
(R147). That a failed `Init` leaves the engine's other fields as they were is the model's choice (log 26). -/
def Obligations.InitSelectsAProfileOrFails : Prop :=
  ∀ (s t : State) (name scale : Nat) (rest : List HostOp), s.todo = .init name scale :: rest →
    t = { s with todo := rest, out := [] } →
    ((∀ p ∈ s.cfg.profiles, p.name ≠ name) →
      step s = .next { t with ph := { s.ph with ready := false }, out := [.initError .unknownType] }) ∧
    ∀ pre p post, s.cfg.profiles = pre ++ p :: post → (∀ q ∈ pre, q.name ≠ name) → p.name = name →
      (scale = 0 → step s = .next { t with ph := { s.ph with ready := false }, out := [.initError .badScale] }) ∧
      (0 < scale → (p.refreshTicks = 0 ∨ s.cfg.tickMax < p.refreshTicks) →
        step s = .next { t with ph := { s.ph with ready := false }, out := [.initError .badInterval] }) ∧
      (0 < scale → 0 < p.refreshTicks → p.refreshTicks ≤ s.cfg.tickMax →
        step s = .next { t with
          ph := { ready := true, profile := p, scale := scale, clock := 0, cells := [], queue := [],
                  penX := 0, penY := 0 },
          out := [.videoInit p scale] })

/-! ## Memory -/

/-- A fetch of a word's address gives the word the host last stored there, any other word as before; the store keeps the
canonical form; for an address space of any size (R35, R36, R39, R41; the byte order is log 2). -/
def Obligations.FetchReturnsTheStoredWord : Prop :=
  ∀ (c : Params) (m : Memory) (a b : Nat) (w : Word), 1 ≤ c.addrBits → Memory.wf c m = true →
    WordAddr c a → WordAddr c b →
    Memory.wf c (storeWord c m a w) = true ∧
      fetchWord c (storeWord c m a w) b = if b = a then w else fetchWord c m b

/-! ## Interrupts and the host's commands -/

/-- The check takes the highest latched request by the spec's priority, waits for its RESUME, and notifies the host once
by the reason's class, but for a stop with the stop interrupt disabled; every register stays as the instruction left it
(R156, R157, R158, R159). -/
def Obligations.CheckTakesTheHighestRequest : Prop :=
  ∀ s : State,
    (s.pend = noPend → check s = s) ∧
    ∀ (k : Nat) (r : Reason) (c : NotifyClass), reasonTable[k]? = some (r, c) → pendGet s.pend r = true →
      (∀ (j : Nat) (q : Reason) (d : NotifyClass), j < k → reasonTable[j]? = some (q, d) → pendGet s.pend q = false) →
      check s = { s with
        pend := pendSet s.pend r false, run := .awaitResume r,
        out := if (r = .internalStop ∨ r = .externalStop) ∧ s.regs.stopIntrEna = false then s.out
          else .notify c :: s.out }

/-- A cycle notifies the host at most once, only out of Running, and then it waits for a reason of the class notified
(R75, R157, R158). -/
def Obligations.CycleNotifiesAtMostOnce : Prop :=
  ∀ (s t : State) (inp : CycleIn) (rest : List HostOp), s.todo = .cycle inp :: rest → step s = .next t →
    (t.out.filter isNotify).length ≤ 1 ∧
    ∀ c, .notify c ∈ t.out → s.run = .running ∧ ∃ r, t.run = .awaitResume r ∧ notifyClass r = c

/-- A fetch that times out sets the flag and waits for a RESUME with the DPC, the item's words and an awaited operand
unchanged; after the RESUME the machine runs again with them as they were (R77, R161). -/
def Obligations.TimedOutFetchCanBeRetried : Prop :=
  ∀ (s : State) (inp : CycleIn) (rest : List HostOp),
    s.todo = .cycle inp :: rest → s.ph.ready = true → s.run = .running → s.pend = noPend →
    s.pendHalf = none → s.clipPend = none → inp.timeout = true →
    (inp.tip = s.flags.tipSw ∨ s.P.lpIntrEna = false ∨ s.regs.cons0 = false) →
    ∃ cells queue out,
      step s = .next { s with
        todo := rest, tick := s.tick + 1, blinkOn := inp.blinkOn,
        flags := { s.flags with timeOut := true, tipSw := inp.tip },
        run := .awaitResume .busTimeout,
        ph := { s.ph with penX := inp.mouseX * s.ph.scale, penY := inp.mouseY * s.ph.scale,
                          clock := s.ph.clock + inp.elapsed, cells := cells, queue := queue },
        out := out } ∧
      out.filter isNotify = [.notify .charFault] ∧
      ∀ t, step s = .next t → (resume t).run = .running ∧ (resume t).dpc = s.dpc ∧ (resume t).acc = s.acc ∧
        (resume t).ctlPend = s.ctlPend ∧ (resume t).flags.timeOut = false

/-- START loads the DPC, modulo the address space, clears every flag but the tip switch, every request and every
continuation, and runs, from any run state; ExtStop sets its flag and latches its request, but has no effect in Halted
and Hung (R82, R84, R86). -/
def Obligations.StartAndExternalStop : Prop :=
  ∀ (s u : State) (op : HostOp) (rest : List HostOp), s.todo = op :: rest → u = { s with todo := rest, out := [] } →
    (∀ v : Word, v.getLsbD 0 = false → (op = .setDpc v ∨ op = .hostWrite 0 v) →
      step s = .next { u with
        dpc := v.toNat % 2 ^ s.cfg.addrBits, flags := { noFlags with tipSw := s.flags.tipSw }, pend := noPend, clipPend := none, lpCont := none,
        pendHalf := none, acc := [], ctlPend := none, syncTarget := 0, run := .running }) ∧
    (op = .extStop →
      step s = .next (if s.run = .halted ∨ s.run = .hung then u else { u with
        flags := { s.flags with extStopFlag := true }, pend := { s.pend with externalStop := true } }))

/-- RESUME, by either form of a write of the DPC, clears the stop flags; out of a wait for a reason it also clears
that reason's flags, lights all the undrawn pixels of the primitive stopped, with the light pen masked, raises the
exit edge event kept with them, and runs; in any other run state it does nothing more (R81, R83, R86, R160). -/
def Obligations.ResumeFinishesTheStoppedPrimitive : Prop :=
  ∀ (s u : State) (v : Word) (op : HostOp) (rest : List HostOp), s.todo = op :: rest →
    op = .setDpc v ∨ op = .hostWrite 0 v → v.getLsbD 0 = true →
    u = { s with todo := rest, out := [], flags := { s.flags with stopFlag := false, extStopFlag := false } } →
    ((∀ r, s.run ≠ .awaitResume r) → step s = .next u) ∧
    ∀ (r : Reason) (fl : Flags), s.run = .awaitResume r →
      fl = (match r with
        | .lightPenHit => { u.flags with lpFlag := false, tipChanged := false }
        | .edgeTransition => { u.flags with edgeFlag := false }
        | .internalStop => u.flags
        | .externalStop => u.flags
        | .charFault => { u.flags with charFault := false }
        | .stackFault => { u.flags with stackOver := false, stackUnder := false }
        | .busTimeout => { u.flags with timeOut := false }
        | .nameMatch => { u.flags with nameMatch := false }) →
      (s.lpCont = none → step s = .next { u with flags := fl, run := .running }) ∧
      (∀ run, s.lpCont = some ⟨run, none⟩ →
        step s = .next { lightAll run { u with flags := fl, lpCont := none } with run := .running }) ∧
      (∀ run q, s.lpCont = some ⟨run, some q⟩ →
        step s = .next { edgeEvent q true (lightAll run { u with flags := fl, lpCont := none }) with run := .running })

/-- Which steps leave each wait: Halted only a START; Hung only a START or Reset; a wait for a reason only a write of
the DPC or Reset; a wait for frame sync only those or a cycle that reaches its target, into Running (R171, R173). -/
def Obligations.WaitStatesAreLeftOnlyAsStated : Prop :=
  ∀ s t : State, step s = .next t → t.run ≠ s.run →
    (s.run = .halted → ∃ op, s.todo.head? = some op ∧ isStart op = true) ∧
    (s.run = .hung → ∃ op, s.todo.head? = some op ∧ (isStart op = true ∨ op = .reset)) ∧
    (∀ r, s.run = .awaitResume r → ∃ op, s.todo.head? = some op ∧
      (op = .reset ∨ ∃ v, op = .setDpc v ∨ op = .hostWrite 0 v)) ∧
    (s.run = .awaitSync → (∃ op, s.todo.head? = some op ∧ (isStart op = true ∨ op = .reset)) ∨
      (t.run = .running ∧ s.syncTarget ≤ t.ph.clock))

/-! ## The device registers and reset -/

/-- A register read changes nothing but the call made. Whatever the open layouts: the DPC, Mode-Parameter,
Graphplot/X-position and CharBuf/Y-position registers read their fields, the Associative-Name register reads 0, and
the registers of one VS60 field read it on VS60 and 0 on VT11 (R31, R32, R33, R34, R85). In the default layout
Graphplot/X-position has the graphplot increment above its coordinate on the VS60 too, Stack-Data reads the frame in
use that the index names, the DPC for index 8, else 0, Stack-Address/Maintenance the index, the enable and the
pointer, and Status-Parameter and Slave-Console/Color their fields bit by bit, those of the VS60 0 on VT11. The
model's choices: which fields those are, and which bits another layout may change (log 13). -/
def Obligations.RegisterReadsReturnTheirFields : Prop :=
  (∀ (s : State) (i : Fin 16) (rest : List HostOp), s.todo = .hostRead i :: rest →
    step s = .next { s with todo := rest, out := [.answer i (hostRead i s)] }) ∧
  (∀ (s : State) (m x y : Word), m = hostRead 1 s → x = hostRead 2 s → y = hostRead 3 s →
    (hostRead 0 s).toNat = s.dpc % 65536 ∧ hostRead 8 s = 0 ∧
    m.getLsbD 15 = s.flags.stopFlag ∧ m.extractLsb' 11 4 = modeCode s.P.mode ∧ m.extractLsb' 8 3 = s.P.intensity ∧
    m.getLsbD 7 = s.flags.lpFlag ∧ m.getLsbD 6 = s.regs.so ∧
    m.getLsbD 5 = (s.flags.edgeFlag && s.cfg.variant == .vs60) ∧ m.getLsbD 4 = s.P.italics ∧
    m.getLsbD 3 = s.P.blinkEna ∧ m.extractLsb' 0 2 = lineTypeCode s.P.lineType ∧
    (s.cfg.variant = .vt11 ∨ s.cfg.hostRegLayout = .reference → x.extractLsb' 10 6 = s.regs.graphInc) ∧
    ((x.extractLsb' 0 10).toNat : Int) = s.rpt.x % 1024 ∧ ((y.extractLsb' 0 10).toNat : Int) = s.rpt.y % 1024) ∧
  ∀ s : State,
    (s.cfg.variant = .vs60 → (hostRead 4 s).toNat = s.regs.reloc % 65536 ∧
      (hostRead 10 s).toNat = s.regs.name % 65536 ∧
      hostRead 12 s = s.regs.termChar.setWidth 16 ∧ hostRead 6 s = BitVec.ofInt 16 s.off.x ∧
      hostRead 7 s = BitVec.ofInt 16 s.off.y ∧ hostRead 15 s = BitVec.ofInt 16 s.off.z ∧
      hostRead 14 s = BitVec.ofInt 16 s.rpt.z) ∧
    (s.cfg.variant = .vt11 → ∀ i ∈ ([4, 6, 7, 8, 10, 12, 14, 15] : List (Fin 16)), hostRead i s = 0) ∧
    (s.cfg.hostRegLayout = .reference →
      (s.regs.stackAddr = 8 → (hostRead 11 s).toNat = s.dpc % 65536) ∧
      (∀ h : s.regs.stackAddr.val < 8, (hostRead 11 s).toNat =
        if s.sp.val ≤ s.regs.stackAddr.val then (s.stk[s.regs.stackAddr.val]).dpc % 65536 else 0) ∧
      (hostRead 13 s).toNat = s.regs.stackAddr.val + (if s.regs.stackIntrEna then 16 else 0) + 256 * s.sp.val ∧
      ∀ (a c : Word) (vs60 : Bool), a = hostRead 5 s → c = hostRead 9 s → vs60 = (s.cfg.variant == .vs60) →
        a.getLsbD 0 = s.flags.stackOver ∧ a.getLsbD 1 = s.flags.stackUnder ∧ a.getLsbD 2 = s.flags.timeOut ∧
        a.getLsbD 3 = s.flags.charFault ∧ a.getLsbD 4 = (vs60 && s.flags.nameMatch) ∧
        a.getLsbD 5 = s.flags.extStopFlag ∧ a.getLsbD 6 = s.flags.tipChanged ∧ a.getLsbD 7 = s.flags.tipSw ∧
        a.getLsbD 8 = (vs60 && s.flags.edgeExit) ∧ a.getLsbD 9 = (vs60 && s.P.depthCue) ∧
        a.getLsbD 10 = (vs60 && s.P.edgeIntrEna) ∧ a.getLsbD 11 = (vs60 && s.P.fileZ) ∧
        a.getLsbD 12 = (vs60 && s.P.charEsc) ∧ a.getLsbD 13 = (vs60 && s.regs.nameIntrEna) ∧
        a.getLsbD 14 = (vs60 && s.regs.menu) ∧ a.getLsbD 15 = (vs60 && s.P.rotate) ∧
        c.extractLsb' 0 1 = s.regs.color ∧ c.getLsbD 1 = (vs60 && s.regs.cons0) ∧
        c.getLsbD 2 = (vs60 && s.regs.cons1) ∧ c.getLsbD 3 = false ∧
        c.extractLsb' 4 4 = (if vs60 then s.P.vscale else 0) ∧ c.extractLsb' 8 2 = (if vs60 then s.P.csIndex else 0) ∧
        c.getLsbD 10 = s.regs.stopIntrEna ∧ c.getLsbD 11 = false ∧ c.extractLsb' 12 2 = s.regs.syncRate ∧
        c.extractLsb' 14 2 = 0)

/-- What a write of each device register but the DPC changes, that of registers 2, 3, 9 and 13 in the default layout;
on VT11 the VS60 registers ignore it, whatever the layout (R31, R86). Under another layout a write of register 2 may
set the graphplot increment and X, one of register 3 Y, one of register 13 its two fields, and no other: the model's
choice (log 13). That a written name is taken modulo `2^NAME_BITS` is the model's choice too (log 1). -/
def Obligations.RegisterWritesHaveTheirEffects : Prop :=
  ∀ (s : State) (v : Word),
    (∀ i ∈ ([1, 5, 10, 11] : List (Fin 16)), hostWrite i v s = s) ∧
    (s.cfg.hostRegLayout = .reference → hostWrite 2 v s = s ∧ hostWrite 3 v s = s) ∧
    hostWrite 2 v s = { s with regs := { s.regs with graphInc := (hostWrite 2 v s).regs.graphInc },
                               pos := ⟨(hostWrite 2 v s).pos.x, s.pos.y, s.pos.z⟩ } ∧
    hostWrite 3 v s = { s with pos := ⟨s.pos.x, (hostWrite 3 v s).pos.y, s.pos.z⟩ } ∧
    (s.cfg.variant = .vt11 → ∀ i ∈ ([4, 6, 7, 8, 12, 13, 14, 15] : List (Fin 16)), hostWrite i v s = s) ∧
    (s.cfg.hostRegLayout = .reference → hostWrite 9 v s = if s.ph.profile.nColors = 2 then
      { s with regs := { s.regs with color := v.extractLsb' 0 1 } } else s) ∧
    (s.cfg.variant = .vs60 →
      hostWrite 4 v s = { s with regs := { s.regs with reloc := v.toNat / 2 * 2 % 2 ^ s.cfg.addrBits } } ∧
      hostWrite 6 v s = { s with off := ⟨v.toInt, s.off.y, s.off.z⟩ } ∧
      hostWrite 7 v s = { s with off := ⟨s.off.x, v.toInt, s.off.z⟩ } ∧
      hostWrite 15 v s = { s with off := ⟨s.off.x, s.off.y, v.toInt⟩ } ∧
      hostWrite 8 v s = { s with regs := { s.regs with assoc := v.toNat % 2048 % 2 ^ s.cfg.nameBits } } ∧
      hostWrite 12 v s = { s with regs := { s.regs with termChar := v.extractLsb' 0 7 } } ∧
      (displayed s (hostWrite 14 v s).pos).z = v.toInt ∧
      hostWrite 14 v s = { s with pos := ⟨s.pos.x, s.pos.y, (hostWrite 14 v s).pos.z⟩ } ∧
      (s.cfg.hostRegLayout = .reference → (hostWrite 13 v s).regs.stackAddr.val = min (v.extractLsb' 0 4).toNat 8 ∧
        (hostWrite 13 v s).regs.stackIntrEna = v.getLsbD 4) ∧
      hostWrite 13 v s = { s with regs := { s.regs with
        stackAddr := (hostWrite 13 v s).regs.stackAddr, stackIntrEna := (hostWrite 13 v s).regs.stackIntrEna } })

/-- Reset leaves the interpreter's registers at the spec's values from any state, and does not touch the phosphor
engine, memory or the parameters. The frames, whose contents the spec leaves unspecified, are left as they were: the
model's choice (log 10) (R172, R173). -/
def Obligations.ResetGivesTheStatedValues : Prop :=
  ∀ (s : State) (rest : List HostOp), s.todo = .reset :: rest →
    step s = .next { s with
      todo := rest, out := [], run := .halted, dpc := 0, pos := ⟨0, 0, 0⟩, off := ⟨0, 0, 0⟩, rpt := ⟨0, 0, 0⟩,
      P := s.cfg.resetParams,
      regs := { stopIntrEna := false, syncRate := 0, graphInc := 0, so := false, nameIntrEna := false, menu := false,
                cons0 := true, cons1 := false, name := 0, assoc := 0, termChar := 0, reloc := 0, color := 0,
                stackIntrEna := true, stackAddr := 8 },
      sp := 8,
      flags := { stopFlag := false, extStopFlag := false, lpFlag := false, tipChanged := false, tipSw := false,
                 edgeFlag := false, edgeExit := false, stackOver := false, stackUnder := false, timeOut := false,
                 charFault := false, nameMatch := false },
      pend := { lightPenHit := false, edgeTransition := false, internalStop := false, externalStop := false,
                charFault := false, stackFault := false, busTimeout := false, nameMatch := false },
      acc := [], ctlPend := none, pendHalf := none, clipPend := none, lpCont := none, syncTarget := 0 }

/-! ## Invariants -/

/-- Every step keeps memory in its canonical form. -/
def Obligations.StepKeepsMemoryCanonical : Prop :=
  ∀ s t : State, MemoryOk s → step s = .next t → MemoryOk t

/-- Every step keeps the DPC, the relocation and the saved DPCs even and within the address space (R19, R24, R40,
R43). -/
def Obligations.StepKeepsAddressesAligned : Prop :=
  ∀ s t : State, s.cfg.legal = true → Aligned s → step s = .next t → Aligned t

/-- Every step keeps the words of a partly assembled item fewer than the mode's longest item, and a held second half in
the mode it was fetched under (R29, R78, R106). -/
def Obligations.StepKeepsItemsWithinTheirMode : Prop :=
  ∀ s t : State, ItemOk s → step s = .next t → ItemOk t

/-- Every step keeps undrawn pixels only in the wait for the light-pen hit that stopped them, and no request in a halted
or hung machine (R29, R83, R84, R159). -/
def Obligations.StepKeepsContinuationsInTheirWait : Prop :=
  ∀ s t : State, WaitsOk s → step s = .next t → WaitsOk t

/-- On the VT11 no step moves a piece of VS60 state off its reset value, selects a VS60 mode, or shows anything of the
edge interrupt, the stack or the name match (R2, R20, R21, R23, R24). -/
def Obligations.StepKeepsVt11Confined : Prop :=
  ∀ s t : State, s.cfg.legal = true → Vt11Confined s → step s = .next t → Vt11Confined t

/-- Every step keeps the engine's invariant: the queue holds each lit cell once, no dark one, in the order of the next
decay event, none overdue (R151, R152). -/
def Obligations.StepKeepsThePhosphorInvariant : Prop :=
  ∀ s t : State, s.cfg.legal = true → PhosphorOk s.ph → step s = .next t → PhosphorOk t.ph

/-- The state after reset meets every invariant, and a Reset from any state confines the VT11 (R172, R174). The
model's choices in it: `State.reset` is a VS60 (log 4), its engine is that of an `Init` of the default profile at
scale 1 (log 5), and its frames, whose contents the spec leaves unspecified, hold zero (log 10). -/
def Obligations.ResetMeetsTheInvariants : Prop :=
  State.reset.cfg.legal = true ∧ MemoryOk State.reset ∧ Aligned State.reset ∧ ItemOk State.reset ∧
  WaitsOk State.reset ∧ Vt11Confined State.reset ∧ PhosphorOk State.reset.ph ∧
  ∀ s : State, s.cfg.legal = true → Vt11Confined (resetCore s)
end

