-- ==== Sys2Proof/Laws/Dispatch.lean ====
section
/-! SUPPORT. One equation per arm of `exec`, true by definition, so that no proof unfolds the whole match. -/

namespace Sys2Proof.Machine

@[simp] theorem exec_sgmChar (f : SgmFields) (s : State) : exec (.sgmChar f) s = execSgmChar f s := rfl
@[simp] theorem exec_sgmSvect (f : SgmFields) (s : State) : exec (.sgmSvect f) s = execSgmSvect f s := rfl
@[simp] theorem exec_sgmLvect (f : SgmFields) (s : State) : exec (.sgmLvect f) s = execSgmLvect f s := rfl
@[simp] theorem exec_sgmPoint (f : SgmFields) (s : State) : exec (.sgmPoint f) s = execSgmPoint f s := rfl
@[simp] theorem exec_sgmGraphx (f : SgmFields) (s : State) : exec (.sgmGraphx f) s = execSgmGraphx f s := rfl
@[simp] theorem exec_sgmGraphy (f : SgmFields) (s : State) : exec (.sgmGraphy f) s = execSgmGraphy f s := rfl
@[simp] theorem exec_sgmRelpoint (f : SgmFields) (s : State) : exec (.sgmRelpoint f) s = execSgmRelpoint f s := rfl
@[simp] theorem exec_sgmBsvect (f : SgmFields) (s : State) : exec (.sgmBsvect f) s = execSgmBsvect f s := rfl
@[simp] theorem exec_sgmCircle (f : SgmFields) (s : State) : exec (.sgmCircle f) s = execSgmCircle f s := rfl
@[simp] theorem exec_sgmAbsvec (f : SgmFields) (s : State) : exec (.sgmAbsvec f) s = execSgmAbsvec f s := rfl
@[simp] theorem exec_ldnr (name : Nat) (s : State) : exec (.ldnr name) s = execLdnr name s := rfl
@[simp] theorem exec_lsrc (f : LsrcFields) (s : State) : exec (.lsrc f) s = execLsrc f s := rfl
@[simp] theorem exec_djmpAbs (ign : BitVec 9) (s : State) : exec (.djmpAbs ign) s = execDjmpAbs ign s := rfl
@[simp] theorem exec_djmpAbsVt11 (ign : BitVec 11) (s : State) : exec (.djmpAbsVt11 ign) s = execDjmpAbsVt11 ign s := rfl
@[simp] theorem exec_djmpRel (disp : Int) (s : State) : exec (.djmpRel disp) s = execDjmpRel disp s := rfl
@[simp] theorem exec_djsrAbs (ign : BitVec 9) (s : State) : exec (.djsrAbs ign) s = execDjsrAbs ign s := rfl
@[simp] theorem exec_djsrRel (disp : Int) (s : State) : exec (.djsrRel disp) s = execDjsrRel disp s := rfl
@[simp] theorem exec_dnop (ign : BitVec 8) (s : State) : exec (.dnop ign) s = execDnop ign s := rfl
@[simp] theorem exec_dnopVt11 (ign : BitVec 11) (s : State) : exec (.dnopVt11 ign) s = execDnopVt11 ign s := rfl
@[simp] theorem exec_dpopNr (ign : BitVec 8) (s : State) : exec (.dpopNr ign) s = execDpopNr ign s := rfl
@[simp] theorem exec_dpopR (ign : BitVec 8) (s : State) : exec (.dpopR ign) s = execDpopR ign s := rfl
@[simp] theorem exec_ldscope (f : LdscopeFields) (s : State) : exec (.ldscope f) s = execLdscope f s := rfl
@[simp] theorem exec_lassoc (ign : BitVec 8) (s : State) : exec (.lassoc ign) s = execLassoc ign s := rfl
@[simp] theorem exec_illegalSub5 (low : BitVec 8) (s : State) : exec (.illegalSub5 low) s = execIllegalSub5 low s := rfl
@[simp] theorem exec_illegalSub6 (low : BitVec 8) (s : State) : exec (.illegalSub6 low) s = execIllegalSub6 low s := rfl
@[simp] theorem exec_illegalSub7 (low : BitVec 8) (s : State) : exec (.illegalSub7 low) s = execIllegalSub7 low s := rfl
@[simp] theorem exec_illegalOp7 (low : BitVec 11) (s : State) : exec (.illegalOp7 low) s = execIllegalOp7 low s := rfl
@[simp] theorem exec_illegalOp8 (low : BitVec 11) (s : State) : exec (.illegalOp8 low) s = execIllegalOp8 low s := rfl
@[simp] theorem exec_illegalOp9 (low : BitVec 11) (s : State) : exec (.illegalOp9 low) s = execIllegalOp9 low s := rfl
@[simp] theorem exec_illegalOp10 (low : BitVec 11) (s : State) : exec (.illegalOp10 low) s = execIllegalOp10 low s := rfl
@[simp] theorem exec_illegalOp11 (low : BitVec 11) (s : State) : exec (.illegalOp11 low) s = execIllegalOp11 low s := rfl
@[simp] theorem exec_lsra (f : LsraFields) (s : State) : exec (.lsra f) s = execLsra f s := rfl
@[simp] theorem exec_lsrb (f : LsrbFields) (s : State) : exec (.lsrb f) s = execLsrb f s := rfl
@[simp] theorem exec_lsrbVt11 (ign : Bool) (f : LsrbFields) (s : State) : exec (.lsrbVt11 ign f) s = execLsrbVt11 ign f s := rfl
@[simp] theorem exec_lsrbb (f : LsrbbFields) (s : State) : exec (.lsrbb f) s = execLsrbb f s := rfl
@[simp] theorem exec_dstop (s : State) : exec .dstop s = execDstop s := rfl
@[simp] theorem exec_charData (f : CharFields) (s : State) : exec (.charData f) s = execCharData f s := rfl
@[simp] theorem exec_svectData (f : SvFields) (s : State) : exec (.svectData f) s = execSvectData f s := rfl
@[simp] theorem exec_lvectData (f : DeltaFields) (s : State) : exec (.lvectData f) s = execLvectData f s := rfl
@[simp] theorem exec_pointData (f : CoordFields) (s : State) : exec (.pointData f) s = execPointData f s := rfl
@[simp] theorem exec_offsetData (f : CoordFields) (s : State) : exec (.offsetData f) s = execOffsetData f s := rfl
@[simp] theorem exec_graphxData (f : CoordFields) (s : State) : exec (.graphxData f) s = execGraphxData f s := rfl
@[simp] theorem exec_graphyData (f : CoordFields) (s : State) : exec (.graphyData f) s = execGraphyData f s := rfl
@[simp] theorem exec_relpointData (f : SvFields) (s : State) : exec (.relpointData f) s = execRelpointData f s := rfl
@[simp] theorem exec_bsvectData (f : BsvFields) (s : State) : exec (.bsvectData f) s = execBsvectData f s := rfl
@[simp] theorem exec_circleData (f : DeltaFields) (s : State) : exec (.circleData f) s = execCircleData f s := rfl
@[simp] theorem exec_absvecData (f : CoordFields) (s : State) : exec (.absvecData f) s = execAbsvecData f s := rfl

/-- What the instruction of a table row can do: a jump, a call, a load of the associative name, or what `exec` says of
a control instruction (R5, R77). -/
theorem execRow_cases (r : EncRow) (ws : List Word) (s : State) :
    (∃ x, execRow r ws s = .next (jumpAbs x s)) ∨ (r.op = .djsrAbs ∧ ∃ x, execRow r ws s = .next (callAbs x s)) ∨
    (r.op = .lassoc ∧ ∃ x, execRow r ws s = .next (loadAssoc x s)) ∨ execRow r ws s = exec (rowInstr r ws) s := by
  unfold execRow
  dsimp only
  split_ifs with h1 h2 h3
  · exact .inl ⟨_, rfl⟩
  · exact .inr (.inl ⟨h2, _, rfl⟩)
  · exact .inr (.inr (.inl ⟨h3, _, rfl⟩))
  · exact .inr (.inr (.inr rfl))

/-- The instructions that a table can name on the VT11 (R50, R67). -/
theorem opOnVariant_vt11 (op : Op) (h : opOnVariant .vt11 op = true) :
    op ∈ ([.sgmChar, .sgmSvect, .sgmLvect, .sgmPoint, .sgmGraphx, .sgmGraphy, .sgmRelpoint, .djmpAbsVt11, .dnopVt11,
      .illegalOp7, .illegalOp8, .illegalOp9, .illegalOp10, .illegalOp11, .lsra, .lsrbVt11, .dstop] : List Op) := by
  revert h
  cases op <;> decide

end Sys2Proof.Machine
end

