-- ==== Sys2Proof/Laws/State.lean ====
section
/-! SUPPORT. The small named updates of the state: one lemma per field per update, true by `rfl`, so that no proof
unfolds a record update. -/

namespace Sys2Proof.Machine

@[simp] theorem call_cfg (o : OutCall) (s : State) : (call o s).cfg = s.cfg := rfl
@[simp] theorem call_run (o : OutCall) (s : State) : (call o s).run = s.run := rfl
@[simp] theorem call_dpc (o : OutCall) (s : State) : (call o s).dpc = s.dpc := rfl
@[simp] theorem call_pos (o : OutCall) (s : State) : (call o s).pos = s.pos := rfl
@[simp] theorem call_off (o : OutCall) (s : State) : (call o s).off = s.off := rfl
@[simp] theorem call_rpt (o : OutCall) (s : State) : (call o s).rpt = s.rpt := rfl
@[simp] theorem call_P (o : OutCall) (s : State) : (call o s).P = s.P := rfl
@[simp] theorem call_regs (o : OutCall) (s : State) : (call o s).regs = s.regs := rfl
@[simp] theorem call_stk (o : OutCall) (s : State) : (call o s).stk = s.stk := rfl
@[simp] theorem call_sp (o : OutCall) (s : State) : (call o s).sp = s.sp := rfl
@[simp] theorem call_flags (o : OutCall) (s : State) : (call o s).flags = s.flags := rfl
@[simp] theorem call_pend (o : OutCall) (s : State) : (call o s).pend = s.pend := rfl
@[simp] theorem call_acc (o : OutCall) (s : State) : (call o s).acc = s.acc := rfl
@[simp] theorem call_ctlPend (o : OutCall) (s : State) : (call o s).ctlPend = s.ctlPend := rfl
@[simp] theorem call_pendHalf (o : OutCall) (s : State) : (call o s).pendHalf = s.pendHalf := rfl
@[simp] theorem call_clipPend (o : OutCall) (s : State) : (call o s).clipPend = s.clipPend := rfl
@[simp] theorem call_lpCont (o : OutCall) (s : State) : (call o s).lpCont = s.lpCont := rfl
@[simp] theorem call_syncTarget (o : OutCall) (s : State) : (call o s).syncTarget = s.syncTarget := rfl
@[simp] theorem call_ph (o : OutCall) (s : State) : (call o s).ph = s.ph := rfl
@[simp] theorem call_mem (o : OutCall) (s : State) : (call o s).mem = s.mem := rfl
@[simp] theorem call_blinkOn (o : OutCall) (s : State) : (call o s).blinkOn = s.blinkOn := rfl
@[simp] theorem call_todo (o : OutCall) (s : State) : (call o s).todo = s.todo := rfl
@[simp] theorem call_tick (o : OutCall) (s : State) : (call o s).tick = s.tick := rfl
@[simp] theorem call_out (o : OutCall) (s : State) : (call o s).out = o :: s.out := rfl

@[simp] theorem raise_cfg (r : Reason) (s : State) : (raise r s).cfg = s.cfg := rfl
@[simp] theorem raise_run (r : Reason) (s : State) : (raise r s).run = s.run := rfl
@[simp] theorem raise_dpc (r : Reason) (s : State) : (raise r s).dpc = s.dpc := rfl
@[simp] theorem raise_pos (r : Reason) (s : State) : (raise r s).pos = s.pos := rfl
@[simp] theorem raise_off (r : Reason) (s : State) : (raise r s).off = s.off := rfl
@[simp] theorem raise_rpt (r : Reason) (s : State) : (raise r s).rpt = s.rpt := rfl
@[simp] theorem raise_P (r : Reason) (s : State) : (raise r s).P = s.P := rfl
@[simp] theorem raise_regs (r : Reason) (s : State) : (raise r s).regs = s.regs := rfl
@[simp] theorem raise_stk (r : Reason) (s : State) : (raise r s).stk = s.stk := rfl
@[simp] theorem raise_sp (r : Reason) (s : State) : (raise r s).sp = s.sp := rfl
@[simp] theorem raise_flags (r : Reason) (s : State) : (raise r s).flags = s.flags := rfl
@[simp] theorem raise_pend (r : Reason) (s : State) : (raise r s).pend = pendSet s.pend r true := rfl
@[simp] theorem raise_acc (r : Reason) (s : State) : (raise r s).acc = s.acc := rfl
@[simp] theorem raise_ctlPend (r : Reason) (s : State) : (raise r s).ctlPend = s.ctlPend := rfl
@[simp] theorem raise_pendHalf (r : Reason) (s : State) : (raise r s).pendHalf = s.pendHalf := rfl
@[simp] theorem raise_clipPend (r : Reason) (s : State) : (raise r s).clipPend = s.clipPend := rfl
@[simp] theorem raise_lpCont (r : Reason) (s : State) : (raise r s).lpCont = s.lpCont := rfl
@[simp] theorem raise_syncTarget (r : Reason) (s : State) : (raise r s).syncTarget = s.syncTarget := rfl
@[simp] theorem raise_ph (r : Reason) (s : State) : (raise r s).ph = s.ph := rfl
@[simp] theorem raise_mem (r : Reason) (s : State) : (raise r s).mem = s.mem := rfl
@[simp] theorem raise_blinkOn (r : Reason) (s : State) : (raise r s).blinkOn = s.blinkOn := rfl
@[simp] theorem raise_todo (r : Reason) (s : State) : (raise r s).todo = s.todo := rfl
@[simp] theorem raise_tick (r : Reason) (s : State) : (raise r s).tick = s.tick := rfl
@[simp] theorem raise_out (r : Reason) (s : State) : (raise r s).out = s.out := rfl

@[simp] theorem moveTo_cfg (p : Pt3) (s : State) : (moveTo p s).cfg = s.cfg := rfl
@[simp] theorem moveTo_run (p : Pt3) (s : State) : (moveTo p s).run = s.run := rfl
@[simp] theorem moveTo_dpc (p : Pt3) (s : State) : (moveTo p s).dpc = s.dpc := rfl
@[simp] theorem moveTo_pos (p : Pt3) (s : State) : (moveTo p s).pos = p := rfl
@[simp] theorem moveTo_off (p : Pt3) (s : State) : (moveTo p s).off = s.off := rfl
@[simp] theorem moveTo_rpt (p : Pt3) (s : State) : (moveTo p s).rpt = displayed s p := rfl
@[simp] theorem moveTo_P (p : Pt3) (s : State) : (moveTo p s).P = s.P := rfl
@[simp] theorem moveTo_regs (p : Pt3) (s : State) : (moveTo p s).regs = s.regs := rfl
@[simp] theorem moveTo_stk (p : Pt3) (s : State) : (moveTo p s).stk = s.stk := rfl
@[simp] theorem moveTo_sp (p : Pt3) (s : State) : (moveTo p s).sp = s.sp := rfl
@[simp] theorem moveTo_flags (p : Pt3) (s : State) : (moveTo p s).flags = s.flags := rfl
@[simp] theorem moveTo_pend (p : Pt3) (s : State) : (moveTo p s).pend = s.pend := rfl
@[simp] theorem moveTo_acc (p : Pt3) (s : State) : (moveTo p s).acc = s.acc := rfl
@[simp] theorem moveTo_ctlPend (p : Pt3) (s : State) : (moveTo p s).ctlPend = s.ctlPend := rfl
@[simp] theorem moveTo_pendHalf (p : Pt3) (s : State) : (moveTo p s).pendHalf = s.pendHalf := rfl
@[simp] theorem moveTo_clipPend (p : Pt3) (s : State) : (moveTo p s).clipPend = s.clipPend := rfl
@[simp] theorem moveTo_lpCont (p : Pt3) (s : State) : (moveTo p s).lpCont = s.lpCont := rfl
@[simp] theorem moveTo_syncTarget (p : Pt3) (s : State) : (moveTo p s).syncTarget = s.syncTarget := rfl
@[simp] theorem moveTo_ph (p : Pt3) (s : State) : (moveTo p s).ph = s.ph := rfl
@[simp] theorem moveTo_mem (p : Pt3) (s : State) : (moveTo p s).mem = s.mem := rfl
@[simp] theorem moveTo_blinkOn (p : Pt3) (s : State) : (moveTo p s).blinkOn = s.blinkOn := rfl
@[simp] theorem moveTo_todo (p : Pt3) (s : State) : (moveTo p s).todo = s.todo := rfl
@[simp] theorem moveTo_tick (p : Pt3) (s : State) : (moveTo p s).tick = s.tick := rfl
@[simp] theorem moveTo_out (p : Pt3) (s : State) : (moveTo p s).out = s.out := rfl

@[simp] theorem edgeEvent_cfg (q : Pt3) (b : Bool) (s : State) : (edgeEvent q b s).cfg = s.cfg := rfl
@[simp] theorem edgeEvent_run (q : Pt3) (b : Bool) (s : State) : (edgeEvent q b s).run = s.run := rfl
@[simp] theorem edgeEvent_dpc (q : Pt3) (b : Bool) (s : State) : (edgeEvent q b s).dpc = s.dpc := rfl
@[simp] theorem edgeEvent_pos (q : Pt3) (b : Bool) (s : State) : (edgeEvent q b s).pos = s.pos := rfl
@[simp] theorem edgeEvent_off (q : Pt3) (b : Bool) (s : State) : (edgeEvent q b s).off = s.off := rfl
@[simp] theorem edgeEvent_rpt (q : Pt3) (b : Bool) (s : State) : (edgeEvent q b s).rpt = q := rfl
@[simp] theorem edgeEvent_P (q : Pt3) (b : Bool) (s : State) : (edgeEvent q b s).P = s.P := rfl
@[simp] theorem edgeEvent_regs (q : Pt3) (b : Bool) (s : State) : (edgeEvent q b s).regs = s.regs := rfl
@[simp] theorem edgeEvent_stk (q : Pt3) (b : Bool) (s : State) : (edgeEvent q b s).stk = s.stk := rfl
@[simp] theorem edgeEvent_sp (q : Pt3) (b : Bool) (s : State) : (edgeEvent q b s).sp = s.sp := rfl
@[simp] theorem edgeEvent_flags (q : Pt3) (b : Bool) (s : State) : (edgeEvent q b s).flags = edgeFlags b s.flags := rfl
@[simp] theorem edgeEvent_pend (q : Pt3) (b : Bool) (s : State) : (edgeEvent q b s).pend = pendSet s.pend .edgeTransition true := rfl
@[simp] theorem edgeEvent_acc (q : Pt3) (b : Bool) (s : State) : (edgeEvent q b s).acc = s.acc := rfl
@[simp] theorem edgeEvent_ctlPend (q : Pt3) (b : Bool) (s : State) : (edgeEvent q b s).ctlPend = s.ctlPend := rfl
@[simp] theorem edgeEvent_pendHalf (q : Pt3) (b : Bool) (s : State) : (edgeEvent q b s).pendHalf = s.pendHalf := rfl
@[simp] theorem edgeEvent_clipPend (q : Pt3) (b : Bool) (s : State) : (edgeEvent q b s).clipPend = s.clipPend := rfl
@[simp] theorem edgeEvent_lpCont (q : Pt3) (b : Bool) (s : State) : (edgeEvent q b s).lpCont = s.lpCont := rfl
@[simp] theorem edgeEvent_syncTarget (q : Pt3) (b : Bool) (s : State) : (edgeEvent q b s).syncTarget = s.syncTarget := rfl
@[simp] theorem edgeEvent_ph (q : Pt3) (b : Bool) (s : State) : (edgeEvent q b s).ph = s.ph := rfl
@[simp] theorem edgeEvent_mem (q : Pt3) (b : Bool) (s : State) : (edgeEvent q b s).mem = s.mem := rfl
@[simp] theorem edgeEvent_blinkOn (q : Pt3) (b : Bool) (s : State) : (edgeEvent q b s).blinkOn = s.blinkOn := rfl
@[simp] theorem edgeEvent_todo (q : Pt3) (b : Bool) (s : State) : (edgeEvent q b s).todo = s.todo := rfl
@[simp] theorem edgeEvent_tick (q : Pt3) (b : Bool) (s : State) : (edgeEvent q b s).tick = s.tick := rfl
@[simp] theorem edgeEvent_out (q : Pt3) (b : Bool) (s : State) : (edgeEvent q b s).out = s.out := rfl

@[simp] theorem lightPenHit_cfg (q : Pt3) (s : State) : (lightPenHit q s).cfg = s.cfg := rfl
@[simp] theorem lightPenHit_run (q : Pt3) (s : State) : (lightPenHit q s).run = s.run := rfl
@[simp] theorem lightPenHit_dpc (q : Pt3) (s : State) : (lightPenHit q s).dpc = s.dpc := rfl
@[simp] theorem lightPenHit_pos (q : Pt3) (s : State) : (lightPenHit q s).pos = s.pos := rfl
@[simp] theorem lightPenHit_off (q : Pt3) (s : State) : (lightPenHit q s).off = s.off := rfl
@[simp] theorem lightPenHit_rpt (q : Pt3) (s : State) : (lightPenHit q s).rpt = q := rfl
@[simp] theorem lightPenHit_P (q : Pt3) (s : State) : (lightPenHit q s).P = s.P := rfl
@[simp] theorem lightPenHit_regs (q : Pt3) (s : State) : (lightPenHit q s).regs = s.regs := rfl
@[simp] theorem lightPenHit_stk (q : Pt3) (s : State) : (lightPenHit q s).stk = s.stk := rfl
@[simp] theorem lightPenHit_sp (q : Pt3) (s : State) : (lightPenHit q s).sp = s.sp := rfl
@[simp] theorem lightPenHit_flags (q : Pt3) (s : State) : (lightPenHit q s).flags = { s.flags with lpFlag := true } := rfl
@[simp] theorem lightPenHit_pend (q : Pt3) (s : State) : (lightPenHit q s).pend = pendSet s.pend .lightPenHit true := rfl
@[simp] theorem lightPenHit_acc (q : Pt3) (s : State) : (lightPenHit q s).acc = s.acc := rfl
@[simp] theorem lightPenHit_ctlPend (q : Pt3) (s : State) : (lightPenHit q s).ctlPend = s.ctlPend := rfl
@[simp] theorem lightPenHit_pendHalf (q : Pt3) (s : State) : (lightPenHit q s).pendHalf = s.pendHalf := rfl
@[simp] theorem lightPenHit_clipPend (q : Pt3) (s : State) : (lightPenHit q s).clipPend = s.clipPend := rfl
@[simp] theorem lightPenHit_lpCont (q : Pt3) (s : State) : (lightPenHit q s).lpCont = s.lpCont := rfl
@[simp] theorem lightPenHit_syncTarget (q : Pt3) (s : State) : (lightPenHit q s).syncTarget = s.syncTarget := rfl
@[simp] theorem lightPenHit_ph (q : Pt3) (s : State) : (lightPenHit q s).ph = s.ph := rfl
@[simp] theorem lightPenHit_mem (q : Pt3) (s : State) : (lightPenHit q s).mem = s.mem := rfl
@[simp] theorem lightPenHit_blinkOn (q : Pt3) (s : State) : (lightPenHit q s).blinkOn = s.blinkOn := rfl
@[simp] theorem lightPenHit_todo (q : Pt3) (s : State) : (lightPenHit q s).todo = s.todo := rfl
@[simp] theorem lightPenHit_tick (q : Pt3) (s : State) : (lightPenHit q s).tick = s.tick := rfl
@[simp] theorem lightPenHit_out (q : Pt3) (s : State) : (lightPenHit q s).out = s.out := rfl

@[simp] theorem advanceDpc_cfg (s : State) : (advanceDpc s).cfg = s.cfg := rfl
@[simp] theorem advanceDpc_run (s : State) : (advanceDpc s).run = s.run := rfl
@[simp] theorem advanceDpc_dpc (s : State) : (advanceDpc s).dpc = wrapAddr s.cfg ((s.dpc : Int) + 2) := rfl
@[simp] theorem advanceDpc_pos (s : State) : (advanceDpc s).pos = s.pos := rfl
@[simp] theorem advanceDpc_off (s : State) : (advanceDpc s).off = s.off := rfl
@[simp] theorem advanceDpc_rpt (s : State) : (advanceDpc s).rpt = s.rpt := rfl
@[simp] theorem advanceDpc_P (s : State) : (advanceDpc s).P = s.P := rfl
@[simp] theorem advanceDpc_regs (s : State) : (advanceDpc s).regs = s.regs := rfl
@[simp] theorem advanceDpc_stk (s : State) : (advanceDpc s).stk = s.stk := rfl
@[simp] theorem advanceDpc_sp (s : State) : (advanceDpc s).sp = s.sp := rfl
@[simp] theorem advanceDpc_flags (s : State) : (advanceDpc s).flags = s.flags := rfl
@[simp] theorem advanceDpc_pend (s : State) : (advanceDpc s).pend = s.pend := rfl
@[simp] theorem advanceDpc_acc (s : State) : (advanceDpc s).acc = s.acc := rfl
@[simp] theorem advanceDpc_ctlPend (s : State) : (advanceDpc s).ctlPend = s.ctlPend := rfl
@[simp] theorem advanceDpc_pendHalf (s : State) : (advanceDpc s).pendHalf = s.pendHalf := rfl
@[simp] theorem advanceDpc_clipPend (s : State) : (advanceDpc s).clipPend = s.clipPend := rfl
@[simp] theorem advanceDpc_lpCont (s : State) : (advanceDpc s).lpCont = s.lpCont := rfl
@[simp] theorem advanceDpc_syncTarget (s : State) : (advanceDpc s).syncTarget = s.syncTarget := rfl
@[simp] theorem advanceDpc_ph (s : State) : (advanceDpc s).ph = s.ph := rfl
@[simp] theorem advanceDpc_mem (s : State) : (advanceDpc s).mem = s.mem := rfl
@[simp] theorem advanceDpc_blinkOn (s : State) : (advanceDpc s).blinkOn = s.blinkOn := rfl
@[simp] theorem advanceDpc_todo (s : State) : (advanceDpc s).todo = s.todo := rfl
@[simp] theorem advanceDpc_tick (s : State) : (advanceDpc s).tick = s.tick := rfl
@[simp] theorem advanceDpc_out (s : State) : (advanceDpc s).out = s.out := rfl

@[simp] theorem countCycle_cfg (s : State) : (countCycle s).cfg = s.cfg := rfl
@[simp] theorem countCycle_run (s : State) : (countCycle s).run = s.run := rfl
@[simp] theorem countCycle_dpc (s : State) : (countCycle s).dpc = s.dpc := rfl
@[simp] theorem countCycle_pos (s : State) : (countCycle s).pos = s.pos := rfl
@[simp] theorem countCycle_off (s : State) : (countCycle s).off = s.off := rfl
@[simp] theorem countCycle_rpt (s : State) : (countCycle s).rpt = s.rpt := rfl
@[simp] theorem countCycle_P (s : State) : (countCycle s).P = s.P := rfl
@[simp] theorem countCycle_regs (s : State) : (countCycle s).regs = s.regs := rfl
@[simp] theorem countCycle_stk (s : State) : (countCycle s).stk = s.stk := rfl
@[simp] theorem countCycle_sp (s : State) : (countCycle s).sp = s.sp := rfl
@[simp] theorem countCycle_flags (s : State) : (countCycle s).flags = s.flags := rfl
@[simp] theorem countCycle_pend (s : State) : (countCycle s).pend = s.pend := rfl
@[simp] theorem countCycle_acc (s : State) : (countCycle s).acc = s.acc := rfl
@[simp] theorem countCycle_ctlPend (s : State) : (countCycle s).ctlPend = s.ctlPend := rfl
@[simp] theorem countCycle_pendHalf (s : State) : (countCycle s).pendHalf = s.pendHalf := rfl
@[simp] theorem countCycle_clipPend (s : State) : (countCycle s).clipPend = s.clipPend := rfl
@[simp] theorem countCycle_lpCont (s : State) : (countCycle s).lpCont = s.lpCont := rfl
@[simp] theorem countCycle_syncTarget (s : State) : (countCycle s).syncTarget = s.syncTarget := rfl
@[simp] theorem countCycle_ph (s : State) : (countCycle s).ph = s.ph := rfl
@[simp] theorem countCycle_mem (s : State) : (countCycle s).mem = s.mem := rfl
@[simp] theorem countCycle_blinkOn (s : State) : (countCycle s).blinkOn = s.blinkOn := rfl
@[simp] theorem countCycle_todo (s : State) : (countCycle s).todo = s.todo := rfl
@[simp] theorem countCycle_tick (s : State) : (countCycle s).tick = s.tick + 1 := rfl
@[simp] theorem countCycle_out (s : State) : (countCycle s).out = s.out := rfl

@[simp] theorem hang_cfg (s : State) : (hang s).cfg = s.cfg := rfl
@[simp] theorem hang_run (s : State) : (hang s).run = .hung := rfl
@[simp] theorem hang_dpc (s : State) : (hang s).dpc = wrapAddr s.cfg ((s.dpc : Int) - 2) := rfl
@[simp] theorem hang_pos (s : State) : (hang s).pos = s.pos := rfl
@[simp] theorem hang_off (s : State) : (hang s).off = s.off := rfl
@[simp] theorem hang_rpt (s : State) : (hang s).rpt = s.rpt := rfl
@[simp] theorem hang_P (s : State) : (hang s).P = s.P := rfl
@[simp] theorem hang_regs (s : State) : (hang s).regs = s.regs := rfl
@[simp] theorem hang_stk (s : State) : (hang s).stk = s.stk := rfl
@[simp] theorem hang_sp (s : State) : (hang s).sp = s.sp := rfl
@[simp] theorem hang_flags (s : State) : (hang s).flags = s.flags := rfl
@[simp] theorem hang_pend (s : State) : (hang s).pend = s.pend := rfl
@[simp] theorem hang_acc (s : State) : (hang s).acc = s.acc := rfl
@[simp] theorem hang_ctlPend (s : State) : (hang s).ctlPend = s.ctlPend := rfl
@[simp] theorem hang_pendHalf (s : State) : (hang s).pendHalf = s.pendHalf := rfl
@[simp] theorem hang_clipPend (s : State) : (hang s).clipPend = s.clipPend := rfl
@[simp] theorem hang_lpCont (s : State) : (hang s).lpCont = s.lpCont := rfl
@[simp] theorem hang_syncTarget (s : State) : (hang s).syncTarget = s.syncTarget := rfl
@[simp] theorem hang_ph (s : State) : (hang s).ph = s.ph := rfl
@[simp] theorem hang_mem (s : State) : (hang s).mem = s.mem := rfl
@[simp] theorem hang_blinkOn (s : State) : (hang s).blinkOn = s.blinkOn := rfl
@[simp] theorem hang_todo (s : State) : (hang s).todo = s.todo := rfl
@[simp] theorem hang_tick (s : State) : (hang s).tick = s.tick := rfl
@[simp] theorem hang_out (s : State) : (hang s).out = s.out := rfl

@[simp] theorem fetchTimeout_cfg (s : State) : (fetchTimeout s).cfg = s.cfg := rfl
@[simp] theorem fetchTimeout_run (s : State) : (fetchTimeout s).run = s.run := rfl
@[simp] theorem fetchTimeout_dpc (s : State) : (fetchTimeout s).dpc = s.dpc := rfl
@[simp] theorem fetchTimeout_pos (s : State) : (fetchTimeout s).pos = s.pos := rfl
@[simp] theorem fetchTimeout_off (s : State) : (fetchTimeout s).off = s.off := rfl
@[simp] theorem fetchTimeout_rpt (s : State) : (fetchTimeout s).rpt = s.rpt := rfl
@[simp] theorem fetchTimeout_P (s : State) : (fetchTimeout s).P = s.P := rfl
@[simp] theorem fetchTimeout_regs (s : State) : (fetchTimeout s).regs = s.regs := rfl
@[simp] theorem fetchTimeout_stk (s : State) : (fetchTimeout s).stk = s.stk := rfl
@[simp] theorem fetchTimeout_sp (s : State) : (fetchTimeout s).sp = s.sp := rfl
@[simp] theorem fetchTimeout_flags (s : State) : (fetchTimeout s).flags = { s.flags with timeOut := true } := rfl
@[simp] theorem fetchTimeout_pend (s : State) : (fetchTimeout s).pend = pendSet s.pend .busTimeout true := rfl
@[simp] theorem fetchTimeout_acc (s : State) : (fetchTimeout s).acc = s.acc := rfl
@[simp] theorem fetchTimeout_ctlPend (s : State) : (fetchTimeout s).ctlPend = s.ctlPend := rfl
@[simp] theorem fetchTimeout_pendHalf (s : State) : (fetchTimeout s).pendHalf = s.pendHalf := rfl
@[simp] theorem fetchTimeout_clipPend (s : State) : (fetchTimeout s).clipPend = s.clipPend := rfl
@[simp] theorem fetchTimeout_lpCont (s : State) : (fetchTimeout s).lpCont = s.lpCont := rfl
@[simp] theorem fetchTimeout_syncTarget (s : State) : (fetchTimeout s).syncTarget = s.syncTarget := rfl
@[simp] theorem fetchTimeout_ph (s : State) : (fetchTimeout s).ph = s.ph := rfl
@[simp] theorem fetchTimeout_mem (s : State) : (fetchTimeout s).mem = s.mem := rfl
@[simp] theorem fetchTimeout_blinkOn (s : State) : (fetchTimeout s).blinkOn = s.blinkOn := rfl
@[simp] theorem fetchTimeout_todo (s : State) : (fetchTimeout s).todo = s.todo := rfl
@[simp] theorem fetchTimeout_tick (s : State) : (fetchTimeout s).tick = s.tick := rfl
@[simp] theorem fetchTimeout_out (s : State) : (fetchTimeout s).out = s.out := rfl

end Sys2Proof.Machine
end

