-- ==== Sys2Proof/Laws/Draw.lean ====
section
/-! SUPPORT. Every drawing operation changes only what `Drawn` lists. -/

namespace Sys2Proof.Machine

theorem Drawn.refl (s : State) : Drawn s s := rfl

theorem Drawn.trans {s t u : State} (h1 : Drawn s t) (h2 : Drawn t u) : Drawn s u := by
  unfold Drawn at *
  rw [h1] at h2
  exact h2

theorem Drawn.pendHalf {s t : State} (h : Drawn s t) (p : Option Half) :
    Drawn { s with pendHalf := p } { t with pendHalf := p } := by
  unfold Drawn at *
  conv_lhs => rw [h]
  rfl

theorem drawn_moveTo (p : Pt3) (s : State) : Drawn s (moveTo p s) := rfl

theorem drawn_edgeEvent (q : Pt3) (b : Bool) (s : State) : Drawn s (edgeEvent q b s) := rfl

theorem drawn_lightPenHit (q : Pt3) (s : State) : Drawn s (lightPenHit q s) := rfl

theorem drawn_clipPend (c : Option Cont) (s : State) : Drawn s { s with clipPend := c } := rfl

theorem drawn_lpCont (c : Option Cont) (s : State) : Drawn s { s with lpCont := c } := rfl

/-- A lit point changes the engine's cells and queue and makes a call, nothing else. -/
theorem illuminate_eq (x y : Int) (i : BitVec 3) (c : BitVec 1) (s : State) :
    (illuminate x y i c s).1 = { s with ph := { s.ph with cells := (illuminate x y i c s).1.ph.cells,
                                                          queue := (illuminate x y i c s).1.ph.queue },
                                        out := (illuminate x y i c s).1.out } := by
  unfold illuminate
  split <;> rfl

theorem drawn_illuminate (x y : Int) (i : BitVec 3) (c : BitVec 1) (s : State) :
    Drawn s (illuminate x y i c s).1 := by
  unfold illuminate
  split <;> rfl

@[simp] theorem illuminate_P (x y : Int) (i : BitVec 3) (c : BitVec 1) (s : State) :
    (illuminate x y i c s).1.P = s.P := by rw [illuminate_eq]

/-- A pixel run is drawn. -/
theorem drawn_drawRun (exit : Option Pt3) (masked : Bool) (run : List Pixel) (s : State) :
    Drawn s (drawRun exit masked run s) := by
  induction run generalizing s with
  | nil => unfold drawRun; split <;> rfl
  | cons p rest ih =>
    unfold drawRun
    have h := drawn_illuminate p.x p.y p.i p.c s
    dsimp only
    split
    · exact (h.trans (drawn_lightPenHit ⟨p.x, p.y, p.z⟩ _)).trans (drawn_lpCont _ _)
    · exact h.trans (ih _)

/-- A pixel run depends on the parameters, the control fields and the blink phase alone (R110). -/
theorem pixelRun_congr {s t : State} (h1 : s.cfg = t.cfg) (h2 : s.P = t.P) (h3 : s.regs = t.regs)
    (h4 : s.blinkOn = t.blinkOn) (pts : List Pt3) (i : Bool) : pixelRun s pts i = pixelRun t pts i := by
  have hp : ∀ p, pixelAt s p = pixelAt t p := fun p => by
    unfold pixelAt intensityAt isVs60
    rw [h1, h2, h3]
  have hd : ∀ (pts : List Pt3) (k : Nat), dashedPixels s k pts = dashedPixels t k pts := by
    intro pts
    induction pts with
    | nil => intro k; rfl
    | cons p rest ih => intro k; simp only [dashedPixels, ih, hp, h1, h2]
  unfold pixelRun lit
  rw [h2, h3, h4, hd]

@[simp] theorem pixelRun_moveTo (p : Pt3) (s : State) (pts : List Pt3) (i : Bool) :
    pixelRun (moveTo p s) pts i = pixelRun s pts i :=
  pixelRun_congr (s := moveTo p s) (t := s) rfl rfl rfl rfl pts i

/-- The viewport depends on the parameters and the control fields alone (R126, R127). -/
theorem viewport_congr {s t : State} (h1 : s.cfg = t.cfg) (h2 : s.regs = t.regs) : viewport s = viewport t := by
  unfold viewport
  rw [h1, h2]

@[simp] theorem viewport_moveTo (p : Pt3) (s : State) : viewport (moveTo p s) = viewport s := rfl

/-- By default the viewport is the visible area, whatever the menu flag (R126). -/
theorem viewport_of_reference (s : State) (h : s.cfg.menuEffect = .reference) : viewport s = visibleArea s.cfg := by
  unfold viewport
  rw [h]

/-- On the VT11 the viewport is the visible area (R126). -/
theorem viewport_of_vt11 (s : State) (h : s.cfg.variant = .vt11) : viewport s = visibleArea s.cfg := by
  unfold viewport
  split
  · rfl
  · rw [if_neg (by simp [h])]

theorem drawn_segment (p0 p1 : Pt3) (i : Bool) (s : State) : Drawn s (segment p0 p1 i s) := by
  unfold segment
  split
  · rfl
  · dsimp only
    split
    · exact drawn_drawRun ..
    · exact drawn_drawRun ..
    · split
      · exact (drawn_edgeEvent ..).trans (drawn_clipPend ..)
      · exact drawn_drawRun ..
    · split
      · exact (drawn_edgeEvent ..).trans (drawn_clipPend ..)
      · exact drawn_drawRun ..

theorem drawn_vecItem (p : Pt3) (i : Bool) (s : State) : Drawn s (vecItem p i s) :=
  (drawn_moveTo p s).trans (drawn_segment ..)

theorem drawn_pointItem (p : Pt3) (i : Bool) (s : State) : Drawn s (pointItem p i s) := by
  unfold pointItem
  dsimp only
  split
  · exact (drawn_moveTo p s).trans (drawn_drawRun ..)
  · exact drawn_moveTo p s

theorem drawn_arcItem (dc de : Pt3) (i : Bool) (s : State) : Drawn s (arcItem dc de i s) :=
  (drawn_moveTo _ s).trans (drawn_drawRun ..)

theorem drawn_clipStep (c : Cont) (s : State) : Drawn s (clipStep c s) :=
  (drawn_clipPend none s).trans (drawn_drawRun ..)

theorem drawn_drawRemainder (s : State) : Drawn s (drawRemainder s) := by
  unfold drawRemainder
  split
  · rfl
  · exact (drawn_lpCont none s).trans (drawn_drawRun ..)

theorem drawn_lightGlyph (run : List Pixel) (first : Option Pt3) (s : State) : Drawn s (lightGlyph run first s).1 := by
  induction run generalizing first s with
  | nil => rfl
  | cons p t ih => exact (drawn_illuminate p.x p.y p.i p.c s).trans (ih _ _)

theorem drawn_glyphDraw (pts : List Pt3) (s : State) : Drawn s (glyphDraw pts s) := by
  unfold glyphDraw
  dsimp only
  split
  · exact drawn_lightGlyph ..
  · exact (drawn_lightGlyph ..).trans (drawn_lightPenHit ..)

theorem drawn_charCrossing (o o' : Pt3) (s : State) : Drawn s (charCrossing o o' s) := by
  unfold charCrossing
  split
  · exact drawn_edgeEvent ..
  · rfl

theorem drawn_glyph (set : CharSet) (b : BitVec 7) (s : State) : Drawn s (glyph set b s) := by
  unfold glyph
  dsimp only
  have h := drawn_moveTo (advanced s) s
  split
  · exact h.trans (drawn_glyphDraw ..)
  · exact h.trans (drawn_charCrossing ..)

theorem drawn_faultedGlyph (b : BitVec 7) (s : State) : Drawn s (faultedGlyph b s) := by
  unfold faultedGlyph
  dsimp only
  split
  · exact (drawn_moveTo _ s).trans (drawn_charCrossing ..)
  · exact drawn_moveTo _ s

theorem drawn_printCode (draw : Bool) (set : CharSet) (b : BitVec 7) (s : State) :
    Drawn s (printCode draw set b s) := by
  unfold printCode
  split
  · exact drawn_glyph ..
  · exact drawn_faultedGlyph ..

/-- A code's effect is drawing and the shift. -/
theorem drawn_charCode (draw : Bool) (b : BitVec 7) (s : State) :
    Drawn { s with regs := { s.regs with so := (charCode draw b s).regs.so } } (charCode draw b s) := by
  have key : ∀ t, Drawn s t → Drawn { s with regs := { s.regs with so := t.regs.so } } t := by
    intro t h
    unfold Drawn at *
    have h2 : t.regs = s.regs := by rw [h]; rfl
    rw [h2]
    exact h
  unfold charCode
  split_ifs
  · exact key _ (drawn_moveTo ..)
  · exact key _ (drawn_moveTo ..)
  · exact key _ (drawn_moveTo ..)
  · rfl
  · rfl
  · exact key _ (drawn_printCode ..)
  · exact key _ (Drawn.refl s)
  · exact key _ (drawn_printCode ..)

theorem drawn_bsvItem (b : BitVec 7) (s : State) : Drawn s (bsvItem b s) := drawn_vecItem ..

end Sys2Proof.Machine
end

