-- ==== Sys2Proof/Laws/Encoding.lean ====
section
/-! SUPPORT. The bits of the encoder's building blocks, and that each format's reader reads back what its writer
wrote. -/

namespace Sys2Proof

/-- Bit `i` of a placed field. -/
theorem put_bit {n : Nat} (lo i : Nat) (v : BitVec n) :
    (put lo v).getLsbD i = (decide (i < 16) && !decide (i < lo) && v.getLsbD (i - lo)) := by
  simp only [put, BitVec.getLsbD_shiftLeft, BitVec.getLsbD_setWidth]
  by_cases h : i < 16 <;> by_cases h2 : i < lo <;> simp [h, h2]
  omega

/-- Bit `i` of a placed bit. -/
theorem putBit_bit (n i : Nat) (b : Bool) : (putBit n b).getLsbD i = (decide (i < 16) && decide (i = n) && b) := by
  rw [putBit, put_bit]
  by_cases h : i = n
  · subst h; simp
  · by_cases h2 : i < n
    · simp [h, h2]
    · have h3 : ¬(i - n = 0) := by omega
      simp [h, h3]

theorem SgmFields.toWord_bit15 (op : BitVec 5) (f : SgmFields) : (f.toWord op).getLsbD 15 = op.getLsbD 4 := by
  simp [SgmFields.toWord, BitVec.getLsbD_or, put_bit, putBit_bit, -BitVec.getLsbD_eq_getElem]

theorem LsraFields.toWord_bit15 (f : LsraFields) : (f.toWord).getLsbD 15 = true := by
  simp [LsraFields.toWord, BitVec.getLsbD_or, put_bit, putBit_bit, -BitVec.getLsbD_eq_getElem]

theorem LsrbFields.toWord_bit15 (b : Bool) (f : LsrbFields) : (f.toWord b).getLsbD 15 = true := by
  simp [LsrbFields.toWord, BitVec.getLsbD_or, put_bit, putBit_bit, -BitVec.getLsbD_eq_getElem]

theorem LsrbbFields.toWord_bit15 (f : LsrbbFields) : (f.toWord).getLsbD 15 = true := by
  simp [LsrbbFields.toWord, BitVec.getLsbD_or, put_bit, putBit_bit, -BitVec.getLsbD_eq_getElem]

theorem LsrcFields.toWord_bit15 (f : LsrcFields) : (f.toWord).getLsbD 15 = true := by
  simp [LsrcFields.toWord, BitVec.getLsbD_or, put_bit, putBit_bit, -BitVec.getLsbD_eq_getElem]

theorem LdscopeFields.toWord_bit15 (f : LdscopeFields) : (f.toWord).getLsbD 15 = true := by
  simp [LdscopeFields.toWord, BitVec.getLsbD_or, put_bit, putBit_bit, -BitVec.getLsbD_eq_getElem]

theorem CharFields.toWord_bit15 (f : CharFields) : (f.toWord).getLsbD 15 = false := by
  simp [CharFields.toWord, BitVec.getLsbD_or, put_bit, putBit_bit, -BitVec.getLsbD_eq_getElem]

theorem SvFields.toWord_bit15 (f : SvFields) : (f.toWord).getLsbD 15 = false := by
  simp [SvFields.toWord, BitVec.getLsbD_or, put_bit, putBit_bit, -BitVec.getLsbD_eq_getElem]

theorem DeltaFields.toWord_bit15 (f : DeltaFields) : (f.toWord).getLsbD 15 = false := by
  simp [DeltaFields.toWord, BitVec.getLsbD_or, put_bit, putBit_bit, -BitVec.getLsbD_eq_getElem]

theorem CoordFields.toWord_bit15 (f : CoordFields) : (f.toWord).getLsbD 15 = false := by
  simp [CoordFields.toWord, BitVec.getLsbD_or, put_bit, putBit_bit, -BitVec.getLsbD_eq_getElem]

theorem BsvFields.toWord_bit15 (f : BsvFields) : (f.toWord).getLsbD 15 = false := by
  simp [BsvFields.toWord, BitVec.getLsbD_or, put_bit, putBit_bit, -BitVec.getLsbD_eq_getElem]

/-- The fields read back from the word written (R52). -/
theorem SgmFields.ofWord_toWord (op : BitVec 5) (f : SgmFields) : SgmFields.ofWord (f.toWord op) = f := by
  obtain ⟨li, int, llp, lp, lbl, bl, llt, lt⟩ := f
  simp only [SgmFields.ofWord, SgmFields.mk.injEq]
  and_intros <;> first
    | ext j hj
      rw [← BitVec.getLsbD_eq_getElem, ← BitVec.getLsbD_eq_getElem]
      interval_cases j <;>
        simp [field, SgmFields.toWord, BitVec.getLsbD_or, BitVec.getLsbD_extractLsb', put_bit, putBit_bit,
          -BitVec.getLsbD_eq_getElem]
    | simp [bit, SgmFields.toWord, BitVec.getLsbD_or, put_bit, putBit_bit, -BitVec.getLsbD_eq_getElem]

/-- The fields read back from the word written (R53). -/
theorem LsraFields.ofWord_toWord (f : LsraFields) : LsraFields.ofWord (f.toWord) = f := by
  obtain ⟨stop, lsi, si, llpi, lpi, lit, it, sync, lmn, mn⟩ := f
  simp only [LsraFields.ofWord, LsraFields.mk.injEq]
  and_intros <;> first
    | ext j hj
      rw [← BitVec.getLsbD_eq_getElem, ← BitVec.getLsbD_eq_getElem]
      interval_cases j <;>
        simp [field, LsraFields.toWord, BitVec.getLsbD_or, BitVec.getLsbD_extractLsb', put_bit, putBit_bit,
          -BitVec.getLsbD_eq_getElem]
    | simp [bit, LsraFields.toWord, BitVec.getLsbD_or, put_bit, putBit_bit, -BitVec.getLsbD_eq_getElem]

/-- The fields read back from the word written (R54). -/
theorem LsrbFields.ofWord_toWord (b10 : Bool) (f : LsrbFields) : LsrbFields.ofWord (f.toWord b10) = f := by
  obtain ⟨reserved, lgi, gi⟩ := f
  simp only [LsrbFields.ofWord, LsrbFields.mk.injEq]
  and_intros <;> first
    | ext j hj
      rw [← BitVec.getLsbD_eq_getElem, ← BitVec.getLsbD_eq_getElem]
      interval_cases j <;>
        simp [field, LsrbFields.toWord, BitVec.getLsbD_or, BitVec.getLsbD_extractLsb', put_bit, putBit_bit,
          -BitVec.getLsbD_eq_getElem]
    | simp [bit, LsrbFields.toWord, BitVec.getLsbD_or, put_bit, putBit_bit, -BitVec.getLsbD_eq_getElem]

/-- The fields read back from the word written (R54). -/
theorem LsrbbFields.ofWord_toWord (f : LsrbbFields) : LsrbbFields.ofWord (f.toWord) = f := by
  obtain ⟨ldc, dc, lei, ei, lz, z, les, es, lni, ni⟩ := f
  simp only [LsrbbFields.ofWord, LsrbbFields.mk.injEq]
  and_intros <;> simp [bit, LsrbbFields.toWord, BitVec.getLsbD_or, put_bit, putBit_bit, -BitVec.getLsbD_eq_getElem]

/-- The fields read back from the word written (R55). -/
theorem LsrcFields.ofWord_toWord (f : LsrcFields) : LsrcFields.ofWord (f.toWord) = f := by
  obtain ⟨lro, ro, lcs, cs, lvs, vs, reserved⟩ := f
  simp only [LsrcFields.ofWord, LsrcFields.mk.injEq]
  and_intros <;> first
    | ext j hj
      rw [← BitVec.getLsbD_eq_getElem, ← BitVec.getLsbD_eq_getElem]
      interval_cases j <;>
        simp [field, LsrcFields.toWord, BitVec.getLsbD_or, BitVec.getLsbD_extractLsb', put_bit, putBit_bit,
          -BitVec.getLsbD_eq_getElem]
    | simp [bit, LsrcFields.toWord, BitVec.getLsbD_or, put_bit, putBit_bit, -BitVec.getLsbD_eq_getElem]

/-- The fields read back from the word written (R58). -/
theorem LdscopeFields.ofWord_toWord (f : LdscopeFields) : LdscopeFields.ofWord (f.toWord) = f := by
  obtain ⟨ignored, lc1, c1, lc0, c0⟩ := f
  simp only [LdscopeFields.ofWord, LdscopeFields.mk.injEq]
  and_intros <;> first
    | ext j hj
      rw [← BitVec.getLsbD_eq_getElem, ← BitVec.getLsbD_eq_getElem]
      interval_cases j <;>
        simp [field, LdscopeFields.toWord, BitVec.getLsbD_or, BitVec.getLsbD_extractLsb', put_bit, putBit_bit,
          -BitVec.getLsbD_eq_getElem]
    | simp [bit, LdscopeFields.toWord, BitVec.getLsbD_or, put_bit, putBit_bit, -BitVec.getLsbD_eq_getElem]

/-- The fields read back from the word written (R60). -/
theorem CharFields.ofWord_toWord (f : CharFields) : CharFields.ofWord (f.toWord) = f := by
  obtain ⟨c1, ignored, c0⟩ := f
  simp only [CharFields.ofWord, CharFields.mk.injEq]
  and_intros <;> first
    | ext j hj
      rw [← BitVec.getLsbD_eq_getElem, ← BitVec.getLsbD_eq_getElem]
      interval_cases j <;>
        simp [field, CharFields.toWord, BitVec.getLsbD_or, BitVec.getLsbD_extractLsb', put_bit, putBit_bit,
          -BitVec.getLsbD_eq_getElem]
    | simp [bit, CharFields.toWord, BitVec.getLsbD_or, put_bit, putBit_bit, -BitVec.getLsbD_eq_getElem]

/-- The fields read back from the word written (R61). -/
theorem SvFields.ofWord_toWord (f : SvFields) : SvFields.ofWord (f.toWord) = f := by
  obtain ⟨i, sx, dx, sy, dy⟩ := f
  simp only [SvFields.ofWord, SvFields.mk.injEq]
  and_intros <;> first
    | ext j hj
      rw [← BitVec.getLsbD_eq_getElem, ← BitVec.getLsbD_eq_getElem]
      interval_cases j <;>
        simp [field, SvFields.toWord, BitVec.getLsbD_or, BitVec.getLsbD_extractLsb', put_bit, putBit_bit,
          -BitVec.getLsbD_eq_getElem]
    | simp [bit, SvFields.toWord, BitVec.getLsbD_or, put_bit, putBit_bit, -BitVec.getLsbD_eq_getElem]

/-- The fields read back from the word written (R62). -/
theorem DeltaFields.ofWord_toWord (f : DeltaFields) : DeltaFields.ofWord (f.toWord) = f := by
  obtain ⟨i, s, reserved, m⟩ := f
  simp only [DeltaFields.ofWord, DeltaFields.mk.injEq]
  and_intros <;> first
    | ext j hj
      rw [← BitVec.getLsbD_eq_getElem, ← BitVec.getLsbD_eq_getElem]
      interval_cases j <;>
        simp [field, DeltaFields.toWord, BitVec.getLsbD_or, BitVec.getLsbD_extractLsb', put_bit, putBit_bit,
          -BitVec.getLsbD_eq_getElem]
    | simp [bit, DeltaFields.toWord, BitVec.getLsbD_or, put_bit, putBit_bit, -BitVec.getLsbD_eq_getElem]

/-- The fields read back from the word written (R63). -/
theorem CoordFields.ofWord_toWord (f : CoordFields) : CoordFields.ofWord (f.toWord) = f := by
  obtain ⟨i, s, off, reserved, m⟩ := f
  simp only [CoordFields.ofWord, CoordFields.mk.injEq]
  and_intros <;> first
    | ext j hj
      rw [← BitVec.getLsbD_eq_getElem, ← BitVec.getLsbD_eq_getElem]
      interval_cases j <;>
        simp [field, CoordFields.toWord, BitVec.getLsbD_or, BitVec.getLsbD_extractLsb', put_bit, putBit_bit,
          -BitVec.getLsbD_eq_getElem]
    | simp [bit, CoordFields.toWord, BitVec.getLsbD_or, put_bit, putBit_bit, -BitVec.getLsbD_eq_getElem]

/-- The fields read back from the word written (R64). -/
theorem BsvFields.ofWord_toWord (f : BsvFields) : BsvFields.ofWord (f.toWord) = f := by
  obtain ⟨ignored, b1, b0⟩ := f
  simp only [BsvFields.ofWord, BsvFields.mk.injEq]
  and_intros <;> first
    | ext j hj
      rw [← BitVec.getLsbD_eq_getElem, ← BitVec.getLsbD_eq_getElem]
      interval_cases j <;>
        simp [field, BsvFields.toWord, BitVec.getLsbD_or, BitVec.getLsbD_extractLsb', put_bit, putBit_bit,
          -BitVec.getLsbD_eq_getElem]
    | simp [bit, BsvFields.toWord, BitVec.getLsbD_or, put_bit, putBit_bit, -BitVec.getLsbD_eq_getElem]

/-- A field of consecutive bits is the word's field (R10). -/
theorem fieldVal_bitsFrom (ws : List Word) (k lo len : Nat) :
    fieldVal ws (bitsFrom k lo len) = (field (wordAt ws k) lo len).toNat := by
  rw [field, BitVec.extractLsb'_toNat]
  induction len generalizing lo with
  | zero => simp [fieldVal, bitsFrom, Nat.mod_one]
  | succ n ih =>
    have hb : bitsFrom k lo (n + 1) = .bit k lo :: bitsFrom k (lo + 1) n := by
      simp only [bitsFrom, List.range_succ_eq_map, List.map_cons, List.map_map, Nat.add_zero]
      congr 2
      funext j
      simp only [Function.comp]
      congr 1
      omega
    rw [hb]
    show 2 * fieldVal ws (bitsFrom k (lo + 1) n) + _ = _
    rw [ih, Nat.shiftRight_succ, pow_succ', Nat.mod_mul]
    have : (refBit ws (.bit k lo)).toNat = ((wordAt ws k).toNat >>> lo) % 2 := by
      simp only [refBit, bit, BitVec.getLsbD, Nat.testBit]
      rcases Nat.mod_two_eq_zero_or_one ((wordAt ws k).toNat >>> lo) with h | h <;> simp [h, Nat.one_and_eq_mod_two]
    rw [this]
    omega
/-- The spec's own encoding has no rows to replace (R68). -/
@[simp] theorem tableRow_spec (v : Variant) (w : Word) : tableRow .spec v w = none := rfl

/-- A control word's row under another table. -/
@[simp] theorem tableRow_table (t : EncTable) (v : Variant) (w : Word) : tableRow (.table t) v w = t.row v w := rfl

/-- What a table can answer: a row of its own that recognizes the word. -/
theorem EncTable.row_eq_some {t : EncTable} {v : Variant} {w : Word} {r : EncRow} (h : t.row v w = some r) :
    r ∈ t.rows ∧ rowMatches v w r = true := ⟨List.mem_of_find?_eq_some h, List.find?_some h⟩

/-- A row that a table answers is an instruction of the variant (R50, R67). -/
theorem EncTable.row_opOnVariant {t : EncTable} {v : Variant} {w : Word} {r : EncRow} (h : t.row v w = some r) :
    opOnVariant v r.op = true := (Bool.and_eq_true_iff.1 (EncTable.row_eq_some h).2).1

/-- Every row is a control instruction (R49). -/
theorem rowInstr_isControl (r : EncRow) (ws : List Word) : isControl (rowInstr r ws) = true := by
  unfold rowInstr buildInstr
  cases r.op <;> rfl

/-- A sign-magnitude operand of consecutive bits (R66). -/
theorem operandVal_signedAt (ws : List Word) (k s lo len : Nat) :
    operandVal ws (signedAt k s lo len) =
      if bit (wordAt ws k) s then -((field (wordAt ws k) lo len).toNat : Int)
      else (field (wordAt ws k) lo len).toNat := by
  simp [operandVal, signedAt, fieldVal_bitsFrom, refBit]

/-- An unsigned operand of consecutive bits (R66). -/
theorem operandVal_unsignedAt (ws : List Word) (k lo len : Nat) :
    operandVal ws (unsignedAt k lo len) = (field (wordAt ws k) lo len).toNat := by
  simp [operandVal, unsignedAt, fieldVal_bitsFrom]

end Sys2Proof
end

