-- ==== Sys2Proof/Laws/Operands.lean ====
section
/-! SUPPORT. The operands read from a word that a format's writer wrote, and the addresses of a space of parametric
size. -/

namespace Sys2Proof.Machine

@[simp] theorem deltaOf_delta (g : DeltaFields) : deltaOf g.toWord = smag g.s g.m := by
  rw [deltaOf, DeltaFields.ofWord_toWord]

@[simp] theorem offsetOf_coord (g : CoordFields) : offsetOf g.toWord = smag g.s g.m := by
  rw [offsetOf, CoordFields.ofWord_toWord]

@[simp] theorem off_coord (g : CoordFields) : (CoordFields.ofWord g.toWord).off = g.off := by
  rw [CoordFields.ofWord_toWord]

theorem coordOf_vs60 (s : State) (g : CoordFields) (h : s.cfg.variant = .vs60) :
    coordOf s g.toWord = smag g.s g.m := by
  rw [coordOf, h]
  dsimp only
  rw [CoordFields.ofWord_toWord]

theorem coordOf_vt11 (s : State) (g : CoordFields) (h : s.cfg.variant = .vt11) :
    coordOf s g.toWord = (g.m.toNat : Int) := by
  rw [coordOf, h]
  dsimp only
  rw [CoordFields.ofWord_toWord]

/-- Under the spec's encoding an item's operands are the spec's (R66). -/
theorem itemOperand_of_spec (s : State) (m : Mode) (ws : List Word) (k : Nat) (h : s.cfg.encoding = .spec) :
    itemOperand s m ws k = specOperand s m ws k := by rw [itemOperand, h]

/-- Under the spec's encoding an item's intensify bit is the spec's (R61 to R64). -/
theorem itemLit_of_spec (s : State) (m : Mode) (ws : List Word) (h : s.cfg.encoding = .spec) :
    itemLit s m ws = specLit m ws := by rw [itemLit, h]

/-- Under the spec's encoding an item has the length of R51. -/
theorem itemWords_of_spec (s : State) (m : Mode) (ws : List Word) (h : s.cfg.encoding = .spec) :
    itemWords s m ws = itemLen m (zWords s) := by rw [itemWords, h]

/-- Whether an item is an OFFSET item under the spec's encoding (R63). -/
theorem isOffsetItem_of_spec (s : State) (m : Mode) (ws : List Word) (h : s.cfg.encoding = .spec) :
    isOffsetItem s m ws = (m == .point && isVs60 s && (CoordFields.ofWord (wordAt ws 0)).off) := by
  rw [isOffsetItem, h]
  rfl

/-- A coordinate of the spec's tables (R63, R66). -/
theorem operandVal_coordAt (s : State) (ws : List Word) (k : Nat) :
    operandVal ws (coordAt s.cfg.variant k) = coordOf s (wordAt ws k) := by
  unfold coordAt coordOf
  cases s.cfg.variant
  · exact operandVal_unsignedAt ws k 0 10
  · exact operandVal_signedAt ws k 13 0 10

/-- Operand `k` of an item of one operand a word. -/
theorem wordItem_operand (ws : List Word) (n nz : Nat) (o : Nat → OperandFormat) (z : Bool) (k : Nat)
    (h : k < if z then nz else n) : (wordItem n nz o).operand z k ws = operandVal ws (o k) := by
  cases z <;> simp at h <;> simp [ItemFormat.operand, wordItem, h]

/-- Operand `k` of a one-word item of two operands. -/
theorem pairItem_operand (ws : List Word) (lit : BitRef) (x y : OperandFormat) (z : Bool) (k : Nat) (h : k < 2) :
    (pairItemFormat lit x y).operand z k ws = operandVal ws (if k = 0 then x else y) := by
  interval_cases k <;> cases z <;> rfl

/-- The spec's tables as a replaceable table give every operand of an item the spec's value (R5, D1). -/
theorem itemOperand_specTable (s : State) (m : Mode) (ws : List Word) (k : Nat)
    (h : s.cfg.encoding = .table (specTable s.cfg.variant))
    (hk : match m with
      | .char => False
      | .svect | .relpoint | .bsvect => k < 2
      | .graphx | .graphy => k < 1
      | .lvect | .point | .absvec => k < if zWords s then 3 else 2
      | .circle => k < if zWords s then 6 else 4) :
    itemOperand s m ws k = specOperand s m ws k := by
  rw [itemOperand, h]
  have sv : k < 2 → ((pairItemFormat (.bit 0 14) (signedAt 0 13 7 6) (signedAt 0 6 0 6))).operand (zWords s) k ws =
      if k = 0 then smag (SvFields.ofWord (wordAt ws 0)).sx (SvFields.ofWord (wordAt ws 0)).dx
      else smag (SvFields.ofWord (wordAt ws 0)).sy (SvFields.ofWord (wordAt ws 0)).dy := fun hk => by
    rw [pairItem_operand _ _ _ _ _ _ hk]
    split <;> rw [operandVal_signedAt] <;> rfl
  have gr : k < 1 →
      (wordItem 1 1 (coordAt s.cfg.variant)).operand (zWords s) k ws = coordOf s (wordAt ws k) := fun hk => by
    rw [wordItem_operand _ _ _ _ _ _ (by simpa using hk), operandVal_coordAt]
  have dl : ∀ n nz, (k < if zWords s then nz else n) →
      (wordItem n nz fun k => signedAt k 13 0 10).operand (zWords s) k ws = deltaOf (wordAt ws k) := fun n nz hk => by
    rw [wordItem_operand _ _ _ _ _ _ hk, operandVal_signedAt]
    rfl
  have co : (k < if zWords s then 3 else 2) →
      (wordItem 2 3 (coordAt s.cfg.variant)).operand (zWords s) k ws = coordOf s (wordAt ws k) := fun hk => by
    rw [wordItem_operand _ _ _ _ _ _ hk, operandVal_coordAt]
  cases m
  · exact hk.elim
  · exact sv hk
  · exact dl 2 3 hk
  · show (if isOffsetItem s .point ws then _ else _ : ItemFormat).operand (zWords s) k ws =
      if isOffsetItem s .point ws then offsetOf (wordAt ws k) else coordOf s (wordAt ws k)
    split
    · exact dl 2 3 hk
    · exact co hk
  · exact gr hk
  · exact gr hk
  · exact sv hk
  · show (pairItemFormat (.bit 0 6) (signedAt 0 5 3 2) (signedAt 0 2 0 2)).operand (zWords s) k ws = _
    rw [pairItem_operand _ _ _ _ _ _ hk]
    have e : ∀ (i lo len : Nat), i < 7 → lo + len ≤ 7 →
        ((wordAt ws 0).setWidth 7).getLsbD i = bit (wordAt ws 0) i ∧
        ((wordAt ws 0).setWidth 7).extractLsb' lo len = field (wordAt ws 0) lo len := fun i lo len hi hl => by
      constructor
      · simp [bit, hi]
      · ext j hj
        simp [field, show lo + j < 7 by omega]
    simp only [specOperand, BsvItemFields.ofItem]
    rw [(e 5 3 2 (by omega) (by omega)).1, (e 5 3 2 (by omega) (by omega)).2, (e 2 0 2 (by omega) (by omega)).1,
      (e 2 0 2 (by omega) (by omega)).2]
    split <;> rw [operandVal_signedAt] <;> rfl
  · exact dl 4 6 hk
  · exact co hk
theorem isVs60_of_zWords (s : State) (h : zWords s = true) : s.cfg.variant = .vs60 := by
  simp only [zWords, isVs60, Bool.and_eq_true, beq_iff_eq] at h
  exact h.1

/-- The address space is not empty. -/
theorem addrSpace_pos (c : Params) : 0 < addrSpace c := Nat.two_pow_pos _

/-- An address after wrapping lies in the address space (R43). -/
theorem wrapAddr_lt (c : Params) (v : Int) : wrapAddr c v < addrSpace c := by
  have h := addrSpace_pos c
  have h1 := Int.emod_nonneg v (b := (addrSpace c : Int)) (by omega)
  have h2 := Int.emod_lt_of_pos v (b := (addrSpace c : Int)) (by omega)
  show (v % (addrSpace c : Int)).toNat < addrSpace c
  generalize (v % (addrSpace c : Int)) = r at *
  omega

/-- A value within the address space is its own address. -/
theorem wrapAddr_of_lt (c : Params) (a : Nat) (h : a < addrSpace c) : wrapAddr c a = a := by
  unfold wrapAddr
  rw [Int.emod_eq_of_lt (by omega) (by omega)]
  rfl

/-- A natural number wrapped is its remainder. -/
theorem wrapAddr_natCast (c : Params) (a : Nat) : wrapAddr c a = a % 2 ^ c.addrBits := by
  unfold wrapAddr addrSpace
  rw [← Int.natCast_emod]
  rfl

/-- The word fetched after this one is two bytes on, modulo the address space (R43, R77). -/
theorem wrapAddr_add_two (c : Params) (a : Nat) : wrapAddr c ((a : Int) + 2) = (a + 2) % 2 ^ c.addrBits :=
  wrapAddr_natCast c (a + 2)

/-- Wrapping keeps bit 0, where addresses have one. -/
theorem wrapAddr_even (c : Params) (v : Int) (hc : 1 ≤ c.addrBits) (hv : v % 2 = 0) : wrapAddr c v % 2 = 0 := by
  obtain ⟨n, hn⟩ := Nat.exists_eq_add_of_le hc
  have hs : (addrSpace c : Int) = 2 * ((2 ^ n : Nat) : Int) := by
    unfold addrSpace
    rw [hn, Nat.pow_add]
    push_cast
    ring
  have h1 : v % (addrSpace c : Int) % 2 = v % 2 := Int.emod_emod_of_dvd v ⟨_, hs⟩
  have h2 := Int.emod_nonneg v (b := (addrSpace c : Int)) (by have := addrSpace_pos c; omega)
  show (v % (addrSpace c : Int)).toNat % 2 = 0
  generalize v % (addrSpace c : Int) = r at *
  omega

/-- An even value, wrapped, is the address of a word (R38, R43). -/
theorem wordAddr_wrapAddr (c : Params) (v : Int) (hc : 1 ≤ c.addrBits) (hv : v % 2 = 0) : WordAddr c (wrapAddr c v) :=
  ⟨wrapAddr_even c v hc hv, wrapAddr_lt c v⟩

/-- The size of the default address space (R9). -/
@[simp] theorem defaultParams_addrSpace : addrSpace defaultParams = 65536 := rfl

end Sys2Proof.Machine
end

