-- ==== Sys2Proof/Laws/Sparse.lean ====
section
/-! SUPPORT. The laws of sparse data: a read after a write, and that a write keeps the canonical form. -/

namespace Sys2Proof.Machine

variable {α : Type}

@[simp] theorem sparseGet_nil (d : α) (a : Nat) : sparseGet d [] a = d := rfl

theorem sparseGet_cons (d : α) (k a : Nat) (v : α) (t : List (Nat × α)) :
    sparseGet d ((k, v) :: t) a = if a = k then v else sparseGet d t a := rfl

/-- A key below every listed key reads the default. -/
theorem sparseGet_of_lt (d : α) (a : Nat) (l : List (Nat × α)) (h : ∀ p ∈ l, a < p.1) : sparseGet d l a = d := by
  induction l with
  | nil => rfl
  | cons p t ih =>
    have := h p (by simp)
    rw [sparseGet_cons, if_neg (by omega), ih fun q hq => h q (by simp [hq])]

variable [DecidableEq α]

/-- The canonical form as its three properties. -/
theorem sparseWf_iff (d : α) (n : Nat) (l : List (Nat × α)) :
    sparseWf d n l = true ↔ l.Pairwise (fun p q => p.1 < q.1) ∧ ∀ p ∈ l, p.1 < n ∧ p.2 ≠ d := by
  simp [sparseWf]

/-- A write's entries are old ones or the one written. -/
theorem mem_sparseSet (d : α) (a : Nat) (v : α) (l : List (Nat × α)) (p : Nat × α) (h : p ∈ sparseSet d a v l) :
    p ∈ l ∨ (p = (a, v) ∧ v ≠ d) := by
  induction l with
  | nil =>
    simp only [sparseSet] at h
    split at h <;> simp_all
  | cons q t ih =>
    obtain ⟨k, x⟩ := q
    simp only [sparseSet] at h
    split at h
    · split at h <;> simp_all
      tauto
    · split at h
      · split at h
        · exact .inl (by simp [h])
        · simp only [List.mem_cons] at h ⊢
          tauto
      · simp only [List.mem_cons] at h ⊢
        tauto

/-- A write keeps the canonical form. -/
theorem sparseSet_wf (d : α) (n a : Nat) (v : α) (l : List (Nat × α)) (ha : a < n) (h : sparseWf d n l = true) :
    sparseWf d n (sparseSet d a v l) = true := by
  rw [sparseWf_iff] at h ⊢
  refine ⟨?_, fun p hp => ?_⟩
  · replace h := h.1
    induction l with
    | nil =>
      simp only [sparseSet]
      split <;> simp
    | cons q t ih =>
      obtain ⟨k, x⟩ := q
      rw [List.pairwise_cons] at h
      simp only [sparseSet]
      split_ifs with h1 h2 h3 h4
      · exact List.pairwise_cons.2 h
      · refine List.pairwise_cons.2 ⟨fun p hp => ?_, List.pairwise_cons.2 h⟩
        rcases List.mem_cons.1 hp with rfl | hp
        · exact h1
        · exact h1.trans (h.1 p hp)
      · exact h.2
      · subst h3
        exact List.pairwise_cons.2 ⟨h.1, h.2⟩
      · refine List.pairwise_cons.2 ⟨fun p hp => ?_, ih h.2⟩
        rcases mem_sparseSet d a v t p hp with hp | ⟨rfl, -⟩
        · exact h.1 p hp
        · show k < a
          omega
  · rcases mem_sparseSet d a v l p hp with hp | ⟨rfl, hv⟩
    · exact h.2 p hp
    · exact ⟨ha, hv⟩

/-- A read after a write of a list with rising keys. -/
theorem sparseGet_sparseSet (d : α) (a b : Nat) (v : α) (l : List (Nat × α))
    (h : l.Pairwise fun p q => p.1 < q.1) :
    sparseGet d (sparseSet d a v l) b = if b = a then v else sparseGet d l b := by
  induction l with
  | nil =>
    simp only [sparseSet]
    split_ifs <;> simp_all [sparseGet_cons]
  | cons q t ih =>
    obtain ⟨k, x⟩ := q
    rw [List.pairwise_cons] at h
    have hd : ∀ c, c ≤ k → sparseGet d t c = d := fun c hc =>
      sparseGet_of_lt d c t fun p hp => by have := h.1 p hp; simp only at this; omega
    simp only [sparseSet]
    split_ifs with h1 h2 h3 h4 <;> grind [sparseGet_cons]

end Sys2Proof.Machine
end

