-- ==== Sys2Proof/Laws/Memory.lean ====
section
/-! SUPPORT. The laws of the host's memory: every operation keeps the canonical form, and the bytes after a store. -/

namespace Sys2Proof.Machine

/-- Memory with nothing listed has the canonical form. -/
theorem memory_nil_wf (c : Params) : Memory.wf c [] = true := rfl

/-- The second byte of a word lies in the address space. -/
theorem nextByte_lt (c : Params) (a : Nat) : nextByte c a < addrSpace c := wrapAddr_lt ..

/-- The canonical form gives rising addresses. -/
theorem Memory.wf_pairwise {c : Params} {m : Memory} (h : Memory.wf c m = true) : m.Pairwise fun p q => p.1 < q.1 :=
  ((sparseWf_iff _ _ _).1 h).1

/-- Storing a byte within the address space keeps the canonical form. -/
theorem writeByte_wf (c : Params) (m : Memory) (a : Nat) (b : Byte) (ha : a < addrSpace c)
    (h : Memory.wf c m = true) : Memory.wf c (writeByte m a b) = true :=
  sparseSet_wf _ _ _ _ _ ha h

/-- Storing a word within the address space keeps the canonical form. -/
theorem storeWord_wf (c : Params) (m : Memory) (a : Nat) (w : Word) (ha : a < addrSpace c)
    (h : Memory.wf c m = true) : Memory.wf c (storeWord c m a w) = true :=
  writeByte_wf _ _ _ _ (nextByte_lt c a) (writeByte_wf _ _ _ _ ha h)

/-- A byte read after a byte is stored. -/
theorem readByte_writeByte (c : Params) (m : Memory) (a x : Nat) (b : Byte) (h : Memory.wf c m = true) :
    readByte (writeByte m a b) x = if x = a then b else readByte m x := by
  simp only [readByte, writeByte, sparseGet_sparseSet _ _ _ _ _ (Memory.wf_pairwise h)]

/-- A byte read after a word is stored: the low byte at its address, the high byte at the next. -/
theorem readByte_storeWord (c : Params) (m : Memory) (a x : Nat) (w : Word) (ha : a < addrSpace c)
    (h : Memory.wf c m = true) :
    readByte (storeWord c m a w) x =
      if x = nextByte c a then highByte w else if x = a then lowByte w else readByte m x := by
  rw [storeWord, readByte_writeByte c _ _ _ _ (writeByte_wf c _ _ _ ha h), readByte_writeByte c _ _ _ _ h]

end Sys2Proof.Machine
end

