-- ==== Sys2Proof/Laws/Ops.lean ====
section
/-! SUPPORT. What each shared operation can do, said once: aging, the check, the stack, START, RESUME and ExtStop. -/

namespace Sys2Proof.Machine

/-- Which requests are latched after one is set or cleared. -/
theorem pendGet_pendSet (p : Pend) (r q : Reason) (b : Bool) :
    pendGet (pendSet p r b) q = if q = r then b else pendGet p q := by
  cases r <;> cases q <;> rfl

/-- No request is latched exactly where none is highest. -/
theorem highest_eq_none_iff (p : Pend) : highest p = none ↔ p = noPend := by
  obtain ⟨a, b, c, d, e, f, g, h⟩ := p
  revert a b c d e f g h
  decide

@[simp] theorem highest_noPend : highest noPend = none := rfl

/-- With nothing latched the check does nothing. -/
@[simp] theorem check_of_noPend (s : State) (h : s.pend = noPend) : check s = s := by
  rw [check, h, highest_noPend]

/-- The check takes the highest request. -/
theorem check_of_highest (s : State) (r : Reason) (h : highest s.pend = some r) : check s = takeInterrupt r s := by
  rw [check, h]

/-- Taking an interrupt changes the requests, the run state and the calls, nothing else (R159). -/
theorem takeInterrupt_eq (r : Reason) (s : State) :
    takeInterrupt r s =
      { s with pend := pendSet s.pend r false, run := .awaitResume r,
               out := if silentStop r s then s.out else .notify (notifyClass r) :: s.out } := by
  unfold takeInterrupt
  dsimp only
  have : silentStop r { s with pend := pendSet s.pend r false, run := .awaitResume r } = silentStop r s := rfl
  rw [this]
  split <;> rfl

/-- The check changes the requests, the run state and the calls, nothing else. -/
theorem check_eq (s : State) :
    check s = { s with pend := (check s).pend, run := (check s).run, out := (check s).out } := by
  unfold check
  split
  · rfl
  · rw [takeInterrupt_eq]

/-- One decay step changes the engine's cells and queue and makes a call. -/
theorem decayStep_eq (k : Nat) (rest : List Nat) (s : State) :
    decayStep k rest s = { s with ph := { s.ph with cells := (decayStep k rest s).ph.cells,
                                                    queue := (decayStep k rest s).ph.queue },
                                  out := (decayStep k rest s).out } := rfl

/-- The decay loop changes the engine's cells and queue and makes calls. -/
theorem decayLoop_eq (n : Nat) (s : State) :
    decayLoop n s = { s with ph := { s.ph with cells := (decayLoop n s).ph.cells,
                                               queue := (decayLoop n s).ph.queue },
                             out := (decayLoop n s).out } := by
  induction n generalizing s with
  | zero => rfl
  | succ n ih =>
    unfold decayLoop
    split
    · rfl
    · split
      · rw [ih, decayStep_eq]
      · rfl

/-- Aging changes the clock, the cells, the queue, the run state and the calls, nothing else (R150). -/
theorem age_eq (e : Nat) (s : State) :
    age e s = { s with ph := { s.ph with clock := s.ph.clock + e, cells := (age e s).ph.cells,
                                         queue := (age e s).ph.queue },
                       run := if s.run = .awaitSync ∧ s.syncTarget ≤ s.ph.clock + e then .running else s.run,
                       out := (age e s).out } := by
  unfold age frameSync
  dsimp only
  rw [decayLoop_eq]
  dsimp only [call]
  split <;> rfl

/-- A successful push (R97). -/
theorem push_of_room (ret : Nat) (s : State) (h : s.sp.val ≠ 0) :
    push ret s = ({ s with sp := ⟨s.sp.val - 1, by omega⟩,
                           stk := s.stk.set (s.sp.val - 1) ⟨ret, s.regs.name, s.P⟩ (by omega) }, true) := by
  rw [push, dif_neg h]

/-- A push on a full stack (R97). -/
theorem push_of_full (ret : Nat) (s : State) (h : s.sp.val = 0) :
    push ret s = (raiseStackFault { s with flags := { s.flags with stackOver := true } }, false) := by
  rw [push, dif_pos h]

/-- A pop of an empty stack (R98). -/
theorem pop_of_empty (restore : Bool) (s : State) (h : ¬s.sp.val < 8) :
    pop restore s = raiseStackFault { s with flags := { s.flags with stackUnder := true } } := by
  rw [pop, dif_neg h]

/-- A successful pop (R98). -/
theorem pop_of_frame (restore : Bool) (s : State) (h : s.sp.val < 8) :
    pop restore s =
      if restore then
        { s with sp := ⟨s.sp.val + 1, by omega⟩, dpc := s.stk[s.sp.val].dpc,
                 regs := { s.regs with name := s.stk[s.sp.val].name }, P := s.stk[s.sp.val].P, acc := [] }
      else { s with sp := ⟨s.sp.val + 1, by omega⟩, dpc := s.stk[s.sp.val].dpc } := by
  rw [pop, dif_pos h]

/-- A RESUME outside `AwaitResume` clears the two stop flags only (R83). -/
theorem resume_of_not_waiting (s : State) (h : ∀ r, s.run ≠ .awaitResume r) :
    resume s = { s with flags := clearStops s.flags } := by
  unfold resume
  dsimp only
  split
  · next r hr => exact absurd hr (h r)
  · rfl

/-- A RESUME from `AwaitResume(r)` (R83). -/
theorem resume_of_waiting (s : State) (r : Reason) (h : s.run = .awaitResume r) :
    resume s = { drawRemainder { s with flags := clearReason r (clearStops s.flags) } with run := .running } := by
  unfold resume
  dsimp only
  rw [h]

/-- ExtStop in a run state that takes it (R84). -/
theorem extStop_of_live (s : State) (h1 : s.run ≠ .halted) (h2 : s.run ≠ .hung) :
    extStop s = raise .externalStop { s with flags := { s.flags with extStopFlag := true } } := by
  unfold extStop
  split
  · exact absurd ‹_› h1
  · exact absurd ‹_› h2
  · rfl

end Sys2Proof.Machine
end

