-- ==== Sys2Proof/Laws/PerInstr.lean ====
section
/-! SUPPORT. Laws of the encoding stated for every instruction, one lemma per constructor. -/

namespace Sys2Proof.Laws.ClassBit

/-- Bit 15 of an instruction's word is set exactly where the instruction is a control instruction (R49). -/
def Statement (i : Instr) : Prop := (encode i).getLsbD 15 = isControl i

theorem sgmChar (f : SgmFields) : Statement (.sgmChar f) := SgmFields.toWord_bit15 0b10000 f

theorem sgmSvect (f : SgmFields) : Statement (.sgmSvect f) := SgmFields.toWord_bit15 0b10001 f

theorem sgmLvect (f : SgmFields) : Statement (.sgmLvect f) := SgmFields.toWord_bit15 0b10010 f

theorem sgmPoint (f : SgmFields) : Statement (.sgmPoint f) := SgmFields.toWord_bit15 0b10011 f

theorem sgmGraphx (f : SgmFields) : Statement (.sgmGraphx f) := SgmFields.toWord_bit15 0b10100 f

theorem sgmGraphy (f : SgmFields) : Statement (.sgmGraphy f) := SgmFields.toWord_bit15 0b10101 f

theorem sgmRelpoint (f : SgmFields) : Statement (.sgmRelpoint f) := SgmFields.toWord_bit15 0b10110 f

theorem sgmBsvect (f : SgmFields) : Statement (.sgmBsvect f) := SgmFields.toWord_bit15 0b10111 f

theorem sgmCircle (f : SgmFields) : Statement (.sgmCircle f) := SgmFields.toWord_bit15 0b11000 f

theorem sgmAbsvec (f : SgmFields) : Statement (.sgmAbsvec f) := SgmFields.toWord_bit15 0b11001 f

theorem ldnr (name : Nat) : Statement (.ldnr name) := by
  show (put 11 0b11010#5 ||| put 0 (BitVec.ofNat 11 name)).getLsbD 15 = true
  simp [put_bit, -BitVec.getLsbD_eq_getElem]

theorem lsrc (f : LsrcFields) : Statement (.lsrc f) := LsrcFields.toWord_bit15 f

theorem djmpAbs (ignored : BitVec 9) : Statement (.djmpAbs ignored) := by
  show (put 9 0b1110000#7 ||| put 0 ignored).getLsbD 15 = true
  simp [put_bit, -BitVec.getLsbD_eq_getElem]

theorem djmpAbsVt11 (ignored : BitVec 11) : Statement (.djmpAbsVt11 ignored) := by
  show (put 11 0b11100#5 ||| put 0 ignored).getLsbD 15 = true
  simp [put_bit, -BitVec.getLsbD_eq_getElem]

theorem djmpRel (disp : Int) : Statement (.djmpRel disp) := by
  show (put 9 0b1110001#7 ||| put 0 (BitVec.ofInt 9 disp)).getLsbD 15 = true
  simp [put_bit, -BitVec.getLsbD_eq_getElem]

theorem djsrAbs (ignored : BitVec 9) : Statement (.djsrAbs ignored) := by
  show (put 9 0b1110010#7 ||| put 0 ignored).getLsbD 15 = true
  simp [put_bit, -BitVec.getLsbD_eq_getElem]

theorem djsrRel (disp : Int) : Statement (.djsrRel disp) := by
  show (put 9 0b1110011#7 ||| put 0 (BitVec.ofInt 9 disp)).getLsbD 15 = true
  simp [put_bit, -BitVec.getLsbD_eq_getElem]

theorem dnop (ignored : BitVec 8) : Statement (.dnop ignored) := by
  show (put 8 0b11101000#8 ||| put 0 ignored).getLsbD 15 = true
  simp [put_bit, -BitVec.getLsbD_eq_getElem]

theorem dnopVt11 (ignored : BitVec 11) : Statement (.dnopVt11 ignored) := by
  show (put 11 0b11101#5 ||| put 0 ignored).getLsbD 15 = true
  simp [put_bit, -BitVec.getLsbD_eq_getElem]

theorem dpopNr (ignored : BitVec 8) : Statement (.dpopNr ignored) := by
  show (put 8 0b11101001#8 ||| put 0 ignored).getLsbD 15 = true
  simp [put_bit, -BitVec.getLsbD_eq_getElem]

theorem dpopR (ignored : BitVec 8) : Statement (.dpopR ignored) := by
  show (put 8 0b11101010#8 ||| put 0 ignored).getLsbD 15 = true
  simp [put_bit, -BitVec.getLsbD_eq_getElem]

theorem ldscope (f : LdscopeFields) : Statement (.ldscope f) := LdscopeFields.toWord_bit15 f

theorem lassoc (ignored : BitVec 8) : Statement (.lassoc ignored) := by
  show (put 8 0b11101100#8 ||| put 0 ignored).getLsbD 15 = true
  simp [put_bit, -BitVec.getLsbD_eq_getElem]

theorem illegalSub5 (low : BitVec 8) : Statement (.illegalSub5 low) := by
  show (put 8 0b11101101#8 ||| put 0 low).getLsbD 15 = true
  simp [put_bit, -BitVec.getLsbD_eq_getElem]

theorem illegalSub6 (low : BitVec 8) : Statement (.illegalSub6 low) := by
  show (put 8 0b11101110#8 ||| put 0 low).getLsbD 15 = true
  simp [put_bit, -BitVec.getLsbD_eq_getElem]

theorem illegalSub7 (low : BitVec 8) : Statement (.illegalSub7 low) := by
  show (put 8 0b11101111#8 ||| put 0 low).getLsbD 15 = true
  simp [put_bit, -BitVec.getLsbD_eq_getElem]

theorem illegalOp7 (low : BitVec 11) : Statement (.illegalOp7 low) := by
  show (put 11 0b10111#5 ||| put 0 low).getLsbD 15 = true
  simp [put_bit, -BitVec.getLsbD_eq_getElem]

theorem illegalOp8 (low : BitVec 11) : Statement (.illegalOp8 low) := by
  show (put 11 0b11000#5 ||| put 0 low).getLsbD 15 = true
  simp [put_bit, -BitVec.getLsbD_eq_getElem]

theorem illegalOp9 (low : BitVec 11) : Statement (.illegalOp9 low) := by
  show (put 11 0b11001#5 ||| put 0 low).getLsbD 15 = true
  simp [put_bit, -BitVec.getLsbD_eq_getElem]

theorem illegalOp10 (low : BitVec 11) : Statement (.illegalOp10 low) := by
  show (put 11 0b11010#5 ||| put 0 low).getLsbD 15 = true
  simp [put_bit, -BitVec.getLsbD_eq_getElem]

theorem illegalOp11 (low : BitVec 11) : Statement (.illegalOp11 low) := by
  show (put 11 0b11011#5 ||| put 0 low).getLsbD 15 = true
  simp [put_bit, -BitVec.getLsbD_eq_getElem]

theorem lsra (f : LsraFields) : Statement (.lsra f) := LsraFields.toWord_bit15 f

theorem lsrb (f : LsrbFields) : Statement (.lsrb f) := LsrbFields.toWord_bit15 false f

theorem lsrbVt11 (ignored : Bool) (f : LsrbFields) : Statement (.lsrbVt11 ignored f) := LsrbFields.toWord_bit15 ignored f

theorem lsrbb (f : LsrbbFields) : Statement (.lsrbb f) := LsrbbFields.toWord_bit15 f

theorem dstop : Statement .dstop := LsraFields.toWord_bit15 dstopFields

theorem charData (f : CharFields) : Statement (.charData f) := CharFields.toWord_bit15 f

theorem svectData (f : SvFields) : Statement (.svectData f) := SvFields.toWord_bit15 f

theorem lvectData (f : DeltaFields) : Statement (.lvectData f) := DeltaFields.toWord_bit15 f

theorem pointData (f : CoordFields) : Statement (.pointData f) := CoordFields.toWord_bit15 f

theorem offsetData (f : CoordFields) : Statement (.offsetData f) := CoordFields.toWord_bit15 f

theorem graphxData (f : CoordFields) : Statement (.graphxData f) := CoordFields.toWord_bit15 f

theorem graphyData (f : CoordFields) : Statement (.graphyData f) := CoordFields.toWord_bit15 f

theorem relpointData (f : SvFields) : Statement (.relpointData f) := SvFields.toWord_bit15 f

theorem bsvectData (f : BsvFields) : Statement (.bsvectData f) := BsvFields.toWord_bit15 f

theorem circleData (f : DeltaFields) : Statement (.circleData f) := DeltaFields.toWord_bit15 f

theorem absvecData (f : CoordFields) : Statement (.absvecData f) := CoordFields.toWord_bit15 f

end Sys2Proof.Laws.ClassBit
end

