-- ==== Sys2Proof/Tests/Slice0.lean ====
section
/-! SUPPORT. The model's own tests: the smoke tests of `wellFormed`, a word written out from the spec's encoding for
every constructor, at most two one-step tests an instruction with results taken from 95_test_vectors.md, and a
witness for the hypotheses of every statement that has some. -/

namespace Sys2Proof.Tests

open Sys2Proof.Machine

/-! ## Helpers -/

/-- The next state of a result, `s` where there is none. -/
def nextOf (r : Result) (s : State) : State :=
  match r with
  | .next t => t
  | .fault _ => s
  | .refused _ => s

/-- Whether a result is a next state. -/
def isNext (r : Result) : Bool :=
  match r with
  | .next _ => true
  | .fault _ => false
  | .refused _ => false

/-- The state after the word is executed in the context the state gives, the DPC already past it. -/
def runs (w : Word) (s : State) : State := nextOf (exec (decode (decodeCtx s) w) s) s

/-- The state after an operand word awaited. -/
def operand (k : CtlPend) (w : Word) (s : State) : State := nextOf (execOperand k w s) s

/-- The state after the last word of an item whose first words are `ws`. -/
def runsItem (ws : List Word) (w : Word) (s : State) : State := runs w { s with acc := ws }

/-- The state after reset on the VT11. -/
def vt11 : State := { State.reset with cfg := defaultParamsFor .vt11 }

/-- The state after reset on the VS60. -/
def vs60 : State := State.reset

/-- A state in a graphic mode at a position. -/
def drawing (s : State) (m : Mode) (x y : Int) : State :=
  { s with P := { s.P with mode := m }, pos := ⟨x, y, 0⟩, rpt := ⟨x, y, 0⟩ }

/-- The cells lit during the last operation, in order, with their levels. -/
def litCells (s : State) : List (Nat × Nat × BitVec 3) :=
  s.out.reverse.filterMap fun o =>
    match o with
    | .setPixel cx cy (.lit l _ _) => some (cx, cy, l)
    | .setPixel _ _ .off | .setPixel _ _ (.handle _) | .notify _ | .flush | .videoInit _ _ | .initError _ | .answer _ _ => none

/-- The visible area of the default display. -/
def screen : Viewport := visibleArea defaultParams

/-- Cells at level 4. -/
def at4 (l : List (Nat × Nat)) : List (Nat × Nat × BitVec 3) := l.map fun p => (p.1, p.2, 4)

/-- A Running machine whose next operation is a quiet cycle that fetches the word. -/
def placed (s : State) (w : Nat) : State := s.withFetchWord 16 w

/-! ## WellFormed: an ill-formed term for each check -/

/-- The VS60's context in a mode, no item begun. -/
def ctx60 (m : Mode) : DecodeCtx := ⟨.vs60, m, none⟩

/-- The VT11's context in a mode, no item begun. -/
def ctx11 (m : Mode) : DecodeCtx := ⟨.vt11, m, none⟩

theorem test_illFormed_vs60_row_on_vt11 :
    [Instr.sgmBsvect default, .sgmCircle default, .sgmAbsvec default, .ldnr 0, .lsrc default, .djmpAbs 0, .djmpRel 0,
      .djsrAbs 0, .djsrRel 0, .dnop 0, .dpopNr 0, .dpopR 0, .ldscope default, .lassoc 0, .illegalSub5 0,
      .illegalSub6 0, .illegalSub7 0, .lsrb default, .lsrbb default].any (wellFormed (ctx11 .char)) = false := by decide

theorem test_illFormed_vt11_row_on_vs60 :
    [Instr.illegalOp7 0, .illegalOp8 0, .illegalOp9 0, .illegalOp10 0, .illegalOp11 0, .djmpAbsVt11 0, .dnopVt11 0,
      .lsrbVt11 false default].any (wellFormed (ctx60 .char)) = false := by decide

theorem test_illFormed_lsra_that_is_dstop : wellFormed (ctx60 .char) (.lsra dstopFields) = false := by decide

theorem test_illFormed_name_or_displacement_too_wide :
    [Instr.ldnr 2048, .djmpRel 256, .djmpRel (-257), .djsrRel 256, .djsrRel (-257)].any (wellFormed (ctx60 .char)) =
      false := by decide

theorem test_illFormed_data_of_another_mode :
    [Instr.svectData default, .lvectData default, .pointData default, .offsetData default, .graphxData default,
      .graphyData default, .relpointData default, .bsvectData default, .circleData default,
      .absvecData default].any (wellFormed (ctx60 .char)) = false ∧
    wellFormed (ctx60 .svect) (.charData default) = false := by decide

theorem test_illFormed_point_or_offset :
    wellFormed (ctx60 .point) (.pointData { (default : CoordFields) with off := true }) = false ∧
    wellFormed (ctx60 .point) (.offsetData default) = false ∧
    wellFormed ⟨.vs60, .point, some true⟩ (.pointData default) = false ∧
    wellFormed (ctx11 .point) (.offsetData { (default : CoordFields) with off := true }) = false := by decide

/-! ## Decode: a word written out from 30_encoding.md for every constructor, bit 15 first -/

theorem test_decode_sgmChar :
    decode (ctx60 .char) 0b1000011011010101#16 = .sgmChar ⟨true, 5, true, false, true, false, true, 1⟩ := by decide

theorem test_decode_sgmSvect :
    decode (ctx60 .char) 0b1000100000101010#16 = .sgmSvect ⟨false, 0, false, true, false, true, false, 2⟩ := by decide

theorem test_decode_sgmLvect :
    decode (ctx60 .char) 0b1001010110000000#16 = .sgmLvect ⟨true, 3, false, false, false, false, false, 0⟩ := by decide

theorem test_decode_sgmPoint :
    decode (ctx60 .char) 0b1001100001000000#16 = .sgmPoint ⟨false, 0, true, false, false, false, false, 0⟩ := by decide

theorem test_decode_sgmGraphx :
    decode (ctx60 .char) 0b1010000000010000#16 = .sgmGraphx ⟨false, 0, false, false, true, false, false, 0⟩ := by decide

theorem test_decode_sgmGraphy :
    decode (ctx60 .char) 0b1010100000000100#16 = .sgmGraphy ⟨false, 0, false, false, false, false, true, 0⟩ := by decide

theorem test_decode_sgmRelpoint :
    decode (ctx60 .char) 0b1011000000000111#16 = .sgmRelpoint ⟨false, 0, false, false, false, false, true, 3⟩ := by
  decide

theorem test_decode_sgmBsvect :
    decode (ctx60 .char) 0b1011111110000000#16 = .sgmBsvect ⟨true, 7, false, false, false, false, false, 0⟩ := by decide

theorem test_decode_sgmCircle :
    decode (ctx60 .char) 0b1100000000100000#16 = .sgmCircle ⟨false, 0, false, true, false, false, false, 0⟩ := by decide

theorem test_decode_sgmAbsvec :
    decode (ctx60 .char) 0b1100100000001000#16 = .sgmAbsvec ⟨false, 0, false, false, false, true, false, 0⟩ := by decide

theorem test_decode_ldnr : decode (ctx60 .char) 0b1101010000000101#16 = .ldnr 0b10000000101 := by decide

theorem test_decode_lsrc :
    decode (ctx60 .char) 0b1101110110110101#16 = .lsrc ⟨true, false, true, 2, true, 10, true⟩ := by decide

theorem test_decode_djmpAbs : decode (ctx60 .char) 0b1110000101010101#16 = .djmpAbs 0b101010101 := by decide

theorem test_decode_djmpAbsVt11 : decode (ctx11 .char) 0b1110011101010101#16 = .djmpAbsVt11 0b11101010101 := by decide

theorem test_decode_djmpRel : decode (ctx60 .char) 0b1110001111111110#16 = .djmpRel (-2) := by decide

theorem test_decode_djsrAbs : decode (ctx60 .char) 0b1110010000000001#16 = .djsrAbs 1 := by decide

theorem test_decode_djsrRel : decode (ctx60 .char) 0b1110011000000011#16 = .djsrRel 3 := by decide

theorem test_decode_dnop : decode (ctx60 .char) 0b1110100010000001#16 = .dnop 0b10000001 := by decide

theorem test_decode_dnopVt11 : decode (ctx11 .char) 0b1110110110000001#16 = .dnopVt11 0b10110000001 := by decide

theorem test_decode_dpopNr : decode (ctx60 .char) 0b1110100110000001#16 = .dpopNr 0b10000001 := by decide

theorem test_decode_dpopR : decode (ctx60 .char) 0b1110101000000010#16 = .dpopR 0b10 := by decide

theorem test_decode_ldscope :
    decode (ctx60 .char) 0b1110101110101001#16 = .ldscope ⟨0b1010, true, false, false, true⟩ := by decide

theorem test_decode_lassoc : decode (ctx60 .char) 0b1110110011110000#16 = .lassoc 0b11110000 := by decide

theorem test_decode_illegalSub5 : decode (ctx60 .char) 0b1110110100000001#16 = .illegalSub5 1 := by decide

theorem test_decode_illegalSub6 : decode (ctx60 .char) 0b1110111000000010#16 = .illegalSub6 2 := by decide

theorem test_decode_illegalSub7 : decode (ctx60 .char) 0b1110111111111111#16 = .illegalSub7 255 := by decide

theorem test_decode_illegalOp7 : decode (ctx11 .char) 0b1011110000000001#16 = .illegalOp7 0b10000000001 := by decide

theorem test_decode_illegalOp8 : decode (ctx11 .char) 0b1100000000000010#16 = .illegalOp8 2 := by decide

theorem test_decode_illegalOp9 : decode (ctx11 .char) 0b1100100000000011#16 = .illegalOp9 3 := by decide

theorem test_decode_illegalOp10 : decode (ctx11 .char) 0b1101000000000100#16 = .illegalOp10 4 := by decide

theorem test_decode_illegalOp11 : decode (ctx11 .char) 0b1101111111111111#16 = .illegalOp11 2047 := by decide

theorem test_decode_lsra :
    decode (ctx60 .char) 0b1111010101011001#16 =
      .lsra ⟨true, false, true, false, true, false, true, 2, false, true⟩ := by decide

theorem test_decode_lsrb : decode (ctx60 .char) 0b1111101011000101#16 = .lsrb ⟨0b101, true, 5⟩ := by decide

theorem test_decode_lsrbVt11 :
    decode (ctx11 .char) 0b1111111010100011#16 = .lsrbVt11 true ⟨0b101, false, 0b100011⟩ := by decide

theorem test_decode_lsrbb :
    decode (ctx60 .char) 0b1111111001100110#16 =
      .lsrbb ⟨true, false, false, true, true, false, false, true, true, false⟩ := by decide

theorem test_decode_dstop :
    decode (ctx60 .char) 0b1111011100000000#16 = .dstop ∧ decode (ctx11 .svect) 0b1111011100000000#16 = .dstop := by
  decide

theorem test_decode_charData :
    decode (ctx60 .char) 0b0100001011000001#16 = .charData ⟨0b1000010, true, 0b1000001⟩ := by decide

theorem test_decode_svectData :
    decode (ctx60 .svect) 0b0100010101000011#16 = .svectData ⟨true, false, 0b001010, true, 3⟩ := by decide

theorem test_decode_lvectData :
    decode (ctx60 .lvect) 0b0110100001100100#16 = .lvectData ⟨true, true, 0b010, 100⟩ := by decide

theorem test_decode_pointData :
    decode (ctx60 .point) 0b0110100111110100#16 = .pointData ⟨true, true, false, 0b10, 500⟩ ∧
    decode (ctx11 .point) 0b0001000001100100#16 = .pointData ⟨false, false, true, 0, 100⟩ := by decide

theorem test_decode_offsetData :
    decode (ctx60 .point) 0b0011000000110010#16 = .offsetData ⟨false, true, true, 0, 50⟩ ∧
    decode ⟨.vs60, .point, some true⟩ 0b0010000000110010#16 = .offsetData ⟨false, true, false, 0, 50⟩ := by decide

theorem test_decode_graphxData :
    decode (ctx60 .graphx) 0b0100000000001010#16 = .graphxData ⟨true, false, false, 0, 10⟩ := by decide

theorem test_decode_graphyData :
    decode (ctx60 .graphy) 0b0010000000001010#16 = .graphyData ⟨false, true, false, 0, 10⟩ := by decide

theorem test_decode_relpointData :
    decode (ctx60 .relpoint) 0b0010001010000101#16 = .relpointData ⟨false, true, 0b000101, false, 5⟩ := by decide

theorem test_decode_bsvectData :
    decode (ctx60 .bsvect) 0b0110010001001000#16 = .bsvectData ⟨true, 0b1001000, 0b1001000⟩ := by decide

theorem test_decode_circleData :
    decode (ctx60 .circle) 0b0100000001100100#16 = .circleData ⟨true, false, 0, 100⟩ := by decide

theorem test_decode_absvecData :
    decode (ctx60 .absvec) 0b0111000000001010#16 = .absvecData ⟨true, true, true, 0, 10⟩ := by decide

/-- An encoding in which OP 13 with SUB 5, unrecognized by the spec's tables, is DNOP; LDNR has its name, of sixteen
bits, in an operand word; DJMP-ABS has its address in its own low nine bits; LSRC has no row; and LVECT has three
words, Y first, with magnitudes of twelve bits, its intensify bit in the last. -/
def corrected : EncTable :=
  { specTable .vs60 with
    rows := [row .dnop 8 0b11101101 [bitsFrom 0 0 8],
      { row .ldnr 11 0b11010 [] with twoWords := true, operand := unsignedAt 1 0 16 },
      { row .djmpAbs 9 0b1110000 [] with operand := unsignedAt 0 0 9 }] ++
        (specRows .vs60).filter fun r => !([.illegalSub5, .ldnr, .djmpAbs, .lsrc].contains r.op)
    lvect := { words := 3, wordsZ := 3, lit := .bit 2 0, operands := [signedAt 1 12 0 12, signedAt 0 12 0 12],
               operandsZ := [] } }

/-- A VS60 with the corrected encoding and names of sixteen bits. -/
def correctedMachine : State := { vs60 with cfg := { defaultParams with encoding := .table corrected, nameBits := 16 } }

theorem test_specTable_reads_what_decode_reads :
    [0o107000, 0o150005, 0o154060, 0o161776, 0o163003, 0o165414, 0o166400, 0o172345, 0o173400, 0o174105,
      0o176300].all (fun w => ((specTable .vs60).row .vs60 w).map (fun r => rowInstr r [w]) ==
        some (decode (ctx60 .char) w)) = true ∧
    ((specTable .vs60).row .vs60 0o166000).map (fun r => (r.twoWords, operandVal [0o166000, 0o174005] r.operand)) =
      some (true, 5) ∧
    ((specTable .vt11).row .vt11 0o160123).map (fun r => (r.twoWords, operandVal [0o160123, 0o177777] r.operand)) =
      some (true, 0o177776) := by decide +kernel

theorem test_corrected_rows :
    (corrected.row .vs60 0o166405).map (fun r => rowInstr r [0o166405]) = some (.dnop 5) ∧
    corrected.row .vs60 0o154060 = none ∧
    (nextOf (dispatchWord 0o160100 correctedMachine) vs60).dpc = 0o100 ∧
    (nextOf (dispatchWord 0o154060 correctedMachine) vs60).run = .hung ∧
    (nextOf (dispatchWord 0o150005 correctedMachine) vs60).ctlPend = some (.held 0o150005) ∧
    (operand (.held 0o150005) 0o100001 correctedMachine).regs.name = 0o100001 := by decide +kernel

theorem test_corrected_lvect :
    (nextOf (dispatchWord 5 { drawing correctedMachine .lvect 0 0 with acc := [5] }) vs60).acc = [5, 5] ∧
    (nextOf (dispatchWord 0 { drawing correctedMachine .lvect 0 0 with acc := [0o014000, 0o003777] }) vs60).pos =
      ⟨2047, -2048, 0⟩ := by decide +kernel

theorem test_decodeBytes_truncated : decodeBytes (ctx60 .char) [0x41] = .error .truncated := by rfl

theorem test_decodeTableWord :
    decodeTableWord 16 0o107000 = some (.sgmSvect ⟨true, 4, false, false, false, false, false, 0⟩) ∧
    decodeTableWord 32 0o160000 = some (.djmpAbs 0) := by decide


/-! ## Control instructions: results of 95_test_vectors.md V1 to V4 -/

theorem test_sgmChar : (runs 0o100000 (drawing vs60 .lvect 0 0)).P = { vs60.P with mode := .char } := by decide

theorem test_sgmSvect :  -- V1 #1
    (runs 0o107000 vs60).P = { vs60.P with mode := .svect, intensity := 4 } := by decide

theorem test_sgmLvect :  -- V1 #2
    (runs 0o113746 vs60).P =
      { vs60.P with mode := .lvect, intensity := 7, lpIntrEna := true, lineType := .shortDash } := by decide

theorem test_sgmPoint :  -- V1 #3
    (runsItem [0o040764] 0o114000 (drawing vs60 .point 0 0)).acc = [] := by decide

theorem test_sgmGraphx : (runs 0o120020 { vs60 with P := { vs60.P with blinkEna := true } }).P.blinkEna = false := by
  decide

theorem test_sgmGraphy : (runs 0o124030 vs60).P = { vs60.P with mode := .graphy, blinkEna := true } := by decide

theorem test_sgmRelpoint : (runs 0o130003 vs60).P = { vs60.P with mode := .relpoint } := by decide

theorem test_sgmBsvect : (runs 0o136200 vs60).P = { vs60.P with mode := .bsvect, intensity := 1 } := by decide

theorem test_sgmCircle : (runs 0o140140 vs60).P = { vs60.P with mode := .circle, lpIntrEna := true } := by decide

theorem test_sgmAbsvec : (runs 0o144007 vs60).P = { vs60.P with mode := .absvec, lineType := .dotDash } := by decide

theorem test_lsra_stop_and_italics :  -- V1 #5, #7
    (runs 0o172000 vs60).flags.stopFlag = true ∧ (runs 0o172000 vs60).pend.internalStop = true ∧
    (runs 0o170060 vs60).P.italics = true ∧ (runs 0o170060 vs60).run = vs60.run := by decide

theorem test_lsra_sync :  -- V1 #8, #9, #10, #11
    (runs 0o170004 { vs60 with ph := { vs60.ph with clock := 25000 } }).syncTarget = 30000 ∧
    (runs 0o170004 vs60).run = .awaitSync ∧ (runs 0o170010 vt11).run = vt11.run ∧
    (runs 0o170010 vs60).run = .awaitSync ∧ (runs 0o172004 vs60).run = vs60.run ∧
    (runs 0o172004 vs60).regs.syncRate = 1 := by decide

theorem test_dstop :  -- V1 #6
    (runs 0o173400 vs60).regs.stopIntrEna = true ∧ (runs 0o173400 vs60).flags.stopFlag = true ∧
    (runs 0o173400 vs60).pend = { noPend with internalStop := true } := by decide

theorem test_lsrb :  -- V1 #12, #13
    (runs 0o174105 vs60).regs.graphInc = 5 ∧
    (runs 0o174005 { vs60 with regs := { vs60.regs with graphInc := 3 } }).regs.graphInc = 3 := by decide

theorem test_lsrbVt11 :  -- V1 #14
    (runs 0o176300 { vt11 with regs := { vt11.regs with graphInc := 3 } }).regs.graphInc = 0 ∧
    (runs 0o176300 vt11).P.edgeIntrEna = false := by decide

theorem test_lsrbb :  -- V1 #15, #16
    (runs 0o176300 vs60).P = { vs60.P with edgeIntrEna := true } ∧
    (runs 0o176060 vs60).P = { vs60.P with fileZ := true } ∧
    (runs 0o176014 vs60).P = { vs60.P with charEsc := true } ∧ (runs 0o176003 vs60).regs.nameIntrEna = true := by
  decide

theorem test_lsrc :  -- V1 #17, #18
    (runs 0o154060 vs60).P = { vs60.P with vscale := 8 } ∧ (runs 0o154600 vs60).P = { vs60.P with csIndex := 2 } ∧
    (runs 0o157000 vs60).P = { vs60.P with rotate := true } := by decide

theorem test_djmpAbs :  -- V2 #1, #2, #3
    (runs 0o160000 vs60).ctlPend = some .djmpAbs ∧ (operand .djmpAbs 0o001001 vs60).dpc = 0o1000 ∧
    (operand .djmpAbs 0o000400 { vs60 with regs := { vs60.regs with reloc := 0o10000 } }).dpc = 0o10400 := by
  decide

theorem test_djmpAbsVt11 :  -- V2 #4
    (runs 0o162000 vt11).ctlPend = some .djmpAbs ∧ (runs 0o162000 vt11).sp = 8 := by decide

theorem test_djmpRel :  -- V2 #5, #6, #8
    (runs 0o161776 { vs60 with dpc := 0o1002 }).dpc = 0o776 ∧ (runs 0o161777 { vs60 with dpc := 0o1002 }).dpc = 0o1000 ∧
    (runs 0o161377 { vs60 with dpc := 0o1002 }).dpc = 0o2000 ∧ (runs 0o161400 { vs60 with dpc := 0o1002 }).dpc = 2 := by
  decide

theorem test_djsrAbs :  -- V2 #9
    (runs 0o162000 vs60).ctlPend = some .djsrAbs ∧
    (operand .djsrAbs 0o002000 { vs60 with dpc := 0o504 }).dpc = 0o2000 ∧
    (operand .djsrAbs 0o002000 { vs60 with dpc := 0o504 }).sp = 7 ∧
    (operand .djsrAbs 0o002000 { vs60 with dpc := 0o504 }).stk[7] = ⟨0o504, 0, vs60.P⟩ := by decide

theorem test_djsrRel :  -- V2 #10
    (runs 0o163003 { vs60 with dpc := 0o1002 }).sp = 7 ∧ (runs 0o163003 { vs60 with dpc := 0o1002 }).dpc = 0o1010 ∧
    (runs 0o163003 { vs60 with dpc := 0o1002 }).stk[7].dpc = 0o1002 := by decide

theorem test_djsrRel_overflow :  -- V2 #11, S6
    (runs 0o163003 { vs60 with dpc := 0o1002, sp := 0 }).dpc = 0o1002 ∧
    (runs 0o163003 { vs60 with dpc := 0o1002, sp := 0 }).flags.stackOver = true ∧
    (check (runs 0o163003 { vs60 with dpc := 0o1002, sp := 0 })).run = .awaitResume .stackFault ∧
    (check (runs 0o163003 { vs60 with dpc := 0o1002, sp := 0 })).out = [.notify .charFault] := by decide

/-- A stack of one frame, a return address of 0o504 (V2 #12, #13). -/
def oneFrame : State :=
  { vs60 with sp := 7, stk := vs60.stk.set 7 ⟨0o504, 3, { vs60.P with mode := .lvect }⟩,
              regs := { vs60.regs with name := 9 }, acc := [0o040005], dpc := 0o602 }

theorem test_dpopNr :  -- V2 #12, #14
    (runs 0o164400 oneFrame).sp = 8 ∧ (runs 0o164400 oneFrame).dpc = 0o504 ∧
    (runs 0o164400 oneFrame).P.mode = .char ∧ (runs 0o164400 oneFrame).regs.name = 9 ∧
    (runs 0o164400 vs60).flags.stackUnder = true ∧ (runs 0o164400 vs60).pend.stackFault = true := by decide

theorem test_dpopR :  -- V2 #13
    (runs 0o165000 oneFrame).dpc = 0o504 ∧ (runs 0o165000 oneFrame).P.mode = .lvect ∧
    (runs 0o165000 oneFrame).regs.name = 3 ∧ (runs 0o165000 oneFrame).acc = [] := by decide

/-- The name interrupt enabled, the associative name 5 (V3). -/
def named : State := { vs60 with regs := { vs60.regs with nameIntrEna := true, assoc := 5 } }

theorem test_ldnr :  -- V3 #1, #3, #4
    (runs 0o150005 named).regs.name = 5 ∧ (runs 0o150005 named).flags.nameMatch = true ∧
    (runs 0o150005 named).pend = { noPend with nameMatch := true } ∧ (runs 0o150006 named).pend = noPend ∧
    (runs 0o153777 named).regs.name = 0o3777 := by decide

theorem test_lassoc :  -- V3 #6
    (runs 0o166000 vs60).ctlPend = some .lassoc ∧ (operand .lassoc 0o174005 vs60).regs.assoc = 5 := by decide

theorem test_ldscope :  -- V3 #7, #8
    (runs 0o165414 vs60).regs.cons1 = true ∧ (runs 0o165414 vs60).regs.cons0 = true ∧
    (runs 0o165402 vs60).regs.cons0 = false := by decide

theorem test_dnop :  -- V4 #1, #2
    runsItem [0o040144] 0o164000 (drawing vs60 .lvect 0 0) = { drawing vs60 .lvect 0 0 with acc := [0o040144] } := by
  decide

theorem test_dnopVt11 :  -- V2 #16
    runs 0o164400 vt11 = vt11 := by decide

/-- Whether a word at 0o700 hangs the machine there. -/
def hangsAt700 (s : State) (w : Word) : Bool :=
  (runs w { s with dpc := 0o702 }).dpc == 0o700 && (runs w { s with dpc := 0o702 }).run == .hung

theorem test_illegal_vs60 :  -- V4 #3
    [0o166400, 0o167000, 0o167400, 0o167777].all (hangsAt700 vs60) = true := by decide

theorem test_illegal_vt11 :  -- V1 #4, V4 #4
    [0o134000, 0o140000, 0o144000, 0o150000, 0o154000].all (hangsAt700 vt11) = true := by decide

/-! ## Graphic data: results of V5 to V8 -/

theorem test_svectData :  -- V5 #2, on both variants
    litCells (runs 0o061203 (drawing vs60 .svect 100 100)) =
      at4 [(100, 100), (99, 101), (98, 101), (97, 102), (96, 102), (95, 103)] ∧
    (runs 0o061203 (drawing vt11 .svect 100 100)).pos = ⟨95, 103, 0⟩ := by decide

theorem test_svectData_scaled :  -- V5 #7
    (runs 0o062400 { drawing vs60 .svect 20 0 with P := { vs60.P with mode := .svect, vscale := 3 } }).pos = ⟨13, 0, 0⟩ :=
  by decide

theorem test_lvectData :  -- V5 #10
    litCells (runsItem [0o060144] 0o000000 (drawing vs60 .lvect 0 0)) = at4 [(0, 0)] ∧
    (runsItem [0o060144] 0o000000 (drawing vs60 .lvect 0 0)).pos = ⟨-100, 0, 0⟩ := by decide

theorem test_lvectData_z :  -- V5 #14, with the position's Z
    (runsItem [0o040004, 0o000002] 0o000012
      { drawing vs60 .lvect 0 0 with P := { vs60.P with mode := .lvect, fileZ := true } }).rpt = ⟨4, 2, 10⟩ := by decide

theorem test_pointData :  -- V6 #3, #4
    (runsItem [0o060144] 0o000144 (drawing vs60 .point 0 0)).pos = ⟨-100, 100, 0⟩ ∧
    litCells (runsItem [0o060144] 0o000144 (drawing vs60 .point 0 0)) = [] ∧
    litCells (runsItem [0o060144] 0o000144 (drawing vt11 .point 0 0)) = at4 [(100, 100)] := by decide

theorem test_offsetData :  -- V6 #5, #6
    (runsItem [0o010144] 0o020062 (drawing vs60 .point 7 7)).off = ⟨100, -50, 0⟩ ∧
    (runsItem [0o010144] 0o020062 (drawing vs60 .point 7 7)).rpt = ⟨7, 7, 0⟩ ∧
    (runsItem [0o010144] 0o020062 (drawing vt11 .point 7 7)).pos = ⟨100, 50, 0⟩ := by decide

theorem test_graphxData :  -- V6 #7
    litCells (runs 0o040012 { drawing vs60 .graphx 0 0 with regs := { vs60.regs with graphInc := 5 } }) =
      at4 [(10, 5)] := by decide

theorem test_graphyData :  -- V6 #8
    litCells (runs 0o040012 { drawing vt11 .graphy 0 0 with regs := { vt11.regs with graphInc := 5 } }) =
      at4 [(5, 10)] := by decide

theorem test_relpointData :  -- V6 #10, #11
    litCells (runs 0o042400 (drawing vs60 .relpoint 0 0)) = at4 [(10, 0)] ∧
    litCells (runs 0o042400 { drawing vs60 .relpoint 0 0 with
      P := { vs60.P with mode := .relpoint, vscale := 8 } }) = at4 [(20, 0)] := by decide

theorem test_bsvectData :  -- V5 #17, #20
    litCells (runs 0o022110 (drawing vs60 .bsvect 0 0)) = at4 [(0, 0), (1, 0), (1, 0), (2, 0)] ∧
    litCells (runs 0o000137 (drawing vs60 .bsvect 10 10)) = at4 [(10, 10), (11, 9), (12, 8), (13, 7)] := by decide

theorem test_circleData :  -- V7 #2
    litCells (runsItem [0o040000, 0o000012, 0o000012] 0o000012 (drawing vs60 .circle 500 500)) =
      at4 [(500, 500), (501, 500), (502, 501), (503, 501), (504, 502), (505, 502), (506, 503), (507, 503), (507, 504),
        (508, 505), (508, 506), (509, 507), (509, 508), (510, 509), (510, 510)] := by decide +kernel

theorem test_circleData_zero_centre :  -- V7 #4
    (litCells (runsItem [0o040000, 0o000000, 0o000012] 0o000000 (drawing vs60 .circle 100 100))).length = 11 := by
  decide +kernel

theorem test_absvecData :  -- V5 #16
    (runsItem [0o040012] 0o000000
      { drawing vs60 .absvec 7 0 with P := { vs60.P with mode := .absvec, vscale := 8 } }).pos = ⟨10, 0, 0⟩ := by decide

/-- The test fonts of V9. -/
def withFonts (s : State) : State :=
  { s with cfg := { s.cfg with
      dotFont := [(0o101, 0x800000000001), (0o102, 1)], dotAltFont := [(0o001, 0x80)],
      strokeFont := [(0o101, [⟨true, 4, 0⟩, ⟨false, 0, 4⟩, ⟨true, 0, 4⟩])] } }

theorem test_charData_dots :  -- V9 #1
    litCells (runs 0o041101 (withFonts vt11)) = at4 [(0, 0), (1, 0), (10, 14), (11, 14), (14, 0), (15, 0)] ∧
    (runs 0o041101 (withFonts vt11)).pos = ⟨28, 0, 0⟩ := by decide

theorem test_charData_strokes :  -- V9 #9, #8
    litCells (runs 0o000101 (drawing (withFonts vs60) .char 100 100)) =
      at4 [(100, 100), (101, 100), (102, 100), (103, 100), (104, 100), (104, 104), (104, 105), (104, 106), (104, 107),
        (104, 108)] ∧
    (runs 0o000101 { drawing (withFonts vs60) .char 1010 0 with P := { vs60.P with edgeIntrEna := true } }).flags =
      { noFlags with edgeFlag := true, edgeExit := true } := by decide +kernel

/-! ## Other rules -/

theorem test_charCodes :  -- V9 #3, #4, #5, #6
    (runs 0o005015 (drawing vt11 .char 100 500)).pos = ⟨0, 476, 0⟩ ∧
    (runs 0o004010 (drawing vt11 .char 100 0)).pos = ⟨72, 0, 0⟩ ∧
    litCells (runs 0o000416 (withFonts vt11)) = at4 [(2, 2), (3, 2)] ∧ runs 0o000001 vt11 = vt11 := by decide

theorem test_strokes_rotated_and_slanted :  -- V9 #11, #12
    ((litCells (runs 0o000101 { drawing (withFonts vs60) .char 100 100 with
      P := { vs60.P with rotate := true } })).map fun p => (p.1, p.2.1)) =
        [(100, 100), (100, 101), (100, 102), (100, 103), (100, 104), (96, 104), (95, 104), (94, 104), (93, 104),
          (92, 104)] ∧
    ((litCells (runs 0o000101 { drawing (withFonts vs60) .char 100 100 with
      P := { vs60.P with italics := true } })).drop 5).map (fun p => (p.1, p.2.1)) =
        [(105, 104), (105, 105), (106, 106), (106, 107), (106, 108)] := by decide +kernel

theorem test_dashes :  -- V8 #2
    litCells (runs 0o042400 { drawing vs60 .svect 0 0 with
      P := { vs60.P with mode := .svect, lineType := .shortDash } }) =
      at4 [(0, 0), (1, 0), (2, 0), (3, 0), (8, 0), (9, 0), (10, 0)] := by decide

theorem test_clip :  -- S4, V5 #12, R117's corner cases
    clip screen ⟨-100, -100, 0⟩ ⟨1200, 1200, 0⟩ = some ⟨.clippedBoth, ⟨0, 0, 0⟩, ⟨1023, 1023, 0⟩⟩ ∧
    clip screen ⟨-50, 100, 0⟩ ⟨50, -100, 0⟩ = some ⟨.clippedBoth, ⟨0, 0, 0⟩, ⟨0, 0, 0⟩⟩ ∧
    clip screen ⟨500, 500, 0⟩ ⟨1500, 1000, 0⟩ = some ⟨.clippedExit, ⟨500, 500, 0⟩, ⟨1023, 761, 0⟩⟩ ∧
    clip screen ⟨-10, 0, 0⟩ ⟨-110, 0, 0⟩ = none := by decide

theorem test_menu_has_no_effect :  -- R126
    viewport { vs60 with regs := { vs60.regs with menu := true } } = screen := by decide

theorem test_arc_full_circle :  -- V7 #3
    arcVertices defaultParams ⟨490, 500, 0⟩ ⟨500, 500, 0⟩ ⟨490, 500, 0⟩ =
      [⟨490, 500, 0⟩, ⟨494, 492, 0⟩, ⟨502, 490, 0⟩, ⟨509, 496, 0⟩, ⟨509, 504, 0⟩, ⟨502, 510, 0⟩, ⟨494, 508, 0⟩,
        ⟨490, 500, 0⟩] := by decide +kernel

theorem test_light_pen :  -- S7
    (runs 0o042400 { drawing vs60 .svect 0 0 with
      cfg := { defaultParams with lpRadius := 1 }, ph := { vs60.ph with penX := 5 },
      P := { vs60.P with mode := .svect, lpIntrEna := true } }).rpt = ⟨4, 0, 0⟩ ∧
    (runs 0o042400 { drawing vs60 .svect 0 0 with
      cfg := { defaultParams with lpRadius := 1 }, ph := { vs60.ph with penX := 5 },
      P := { vs60.P with mode := .svect, lpIntrEna := true } }).lpCont.map (fun c => c.run.map fun p => p.x) =
        some [5, 6, 7, 8, 9, 10] := by decide

theorem test_queue :  -- S2, the clock at 3000
    (illuminate 5 5 6 0 { vs60 with ph := { vs60.ph with
      clock := 3000, queue := [5125, 7175], cells := [(5125, ⟨4, 8, 0, 10000⟩), (7175, ⟨4, 8, 0, 10000⟩)] } }).1.ph =
      { vs60.ph with
        clock := 3000, queue := [7175, 5125],
        cells := [(5125, ⟨6, 8, 0, 13000⟩), (7175, ⟨4, 8, 0, 10000⟩)] } := by decide

theorem test_age :  -- V10 #13
    (age 7000 { vs60 with ph := { vs60.ph with
      clock := 3000, queue := [1025, 2050], cells := [(1025, ⟨4, 8, 0, 10000⟩), (2050, ⟨4, 8, 0, 13000⟩)] } }).ph =
      { vs60.ph with
        clock := 10000, queue := [2050, 1025],
        cells := [(1025, ⟨4, 7, 0, 20000⟩), (2050, ⟨4, 8, 0, 13000⟩)] } := by decide

theorem test_decayColor_off :  -- R146: an entry that gives Off, one that gives a handle, and none
    let p : Profile := { refProfile with decay := [⟨4, 7, 0, none⟩, ⟨4, 6, 0, some 3⟩] }
    decayColor p 4 7 0 = .off ∧ decayColor p 4 6 0 = .handle 3 ∧ decayColor p 4 5 0 = .lit 4 5 0 := by decide

theorem test_brighten :  -- V10 #9, #11, #12
    litLevel { defaultParams with brighten := true } 8 ⟨5, 7, 0, 0⟩ 5 0 = 6 ∧
    litLevel { defaultParams with brighten := true } 8 ⟨3, 7, 0, 0⟩ 6 0 = 6 ∧
    litLevel { defaultParams with brighten := true } 8 ⟨7, 8, 0, 0⟩ 7 0 = 7 := by decide

theorem test_wide_addresses :  -- R44, R59, R43: 18 address bits, and 8
    (operand .djmpAbs 0o001001 { vs60 with
      cfg := { defaultParams with addrBits := 18 }, regs := { vs60.regs with reloc := 0o600000 } }).dpc = 0o601000 ∧
    (operand .djmpAbs 0o001002 { vs60 with cfg := { defaultParams with addrBits := 8 } }).dpc = 2 ∧
    (advanceDpc { vs60 with cfg := { defaultParams with addrBits := 8 }, dpc := 0o376 }).dpc = 0 := by decide

theorem test_hostRead :  -- V11 #12, #13, V12
    hostRead 13 vs60 = 0o4030 ∧ hostRead 13 vt11 = 0o4030 ∧ hostRead 9 vs60 = 0o502 ∧ hostRead 1 vs60 = 0o002000 ∧ hostRead 0 vs60 = 0 := by decide

theorem test_hostWrite :  -- V11 #14, #15, #16
    (hostWrite 13 0o000005 vs60).regs.stackAddr = 5 ∧ hostRead 11 (hostWrite 13 0o000005 vs60) = 0 ∧
    (hostWrite 14 0o000144 { vs60 with off := ⟨0, 0, 10⟩ }).pos.z = 90 ∧
    (hostWrite 4 0o001001 vs60).regs.reloc = 0o1000 := by decide

theorem test_step_runs_the_placed_word :  -- S5, by a whole step
    litCells (nextOf (step (placed (drawing vs60 .svect 0 0) 0o042400)) vs60) =
      at4 [(0, 0), (1, 0), (2, 0), (3, 0), (4, 0), (5, 0), (6, 0), (7, 0), (8, 0), (9, 0), (10, 0)] := by decide

theorem test_step_stops :  -- V1 #6, by a whole step
    (nextOf (step (placed vs60 0o173400)) vs60).run = .awaitResume .internalStop ∧
    (nextOf (step (placed vs60 0o173400)) vs60).out = [.flush, .notify .stop] := by decide

/-! ## Witnesses: for each statement with hypotheses, states and operands that meet them together -/

/-- A quiet cycle of a state. -/
def quiet (s : State) : HostOp := .cycle (quietInput s)

/-- A Running machine with a quiet cycle listed and no word to wait for. -/
def running (s : State) : State := { s with run := .running, todo := [quiet s] }

/-- A machine with one operation of the host listed. -/
def told (op : HostOp) (s : State) : State := { s with todo := [op] }

/-- A machine with the cell at (5, 0) lit at clock 0. -/
def glowing : State :=
  { vs60 with ph := { vs60.ph with cells := [(5, ⟨4, 8, 0, 10000⟩)], queue := [5] } }

/-- A machine with the light pen enabled at (5, 0), radius 1. -/
def penned : State :=
  { vs60 with cfg := { defaultParams with lpRadius := 1 }, ph := { vs60.ph with penX := 5 },
              P := { vs60.P with lpIntrEna := true } }

/-- A machine whose display file has Z words. -/
def withZ : State := { vs60 with P := { vs60.P with fileZ := true } }

/-- The machines that the witnesses on items use have the spec's encoding; the corrected one has not. -/
theorem witness_encodings : vs60.cfg.encoding = .spec ∧ withZ.cfg.encoding = .spec ∧ vt11.cfg.encoding = .spec ∧
    correctedMachine.cfg.encoding = .table corrected := by decide

theorem witness_DecodeOfEncodeIsTheInstruction :
    wellFormed (ctx60 .char) (.ldnr 0o3777) = true ∧ wellFormed (ctx11 .point) (.pointData ⟨true, true, true, 3, 1023⟩) =
      true ∧ wellFormed ⟨.vs60, .point, some true⟩ (.offsetData default) = true := by decide

theorem witness_ClassAndUnrecognizedEncodings :
    [0o134000, 0o157777].all (fun w => isUnrecognized (decode (ctx11 .char) w)) = true ∧
    [0o133777, 0o160000].any (fun w => isUnrecognized (decode (ctx11 .char) w)) = false ∧
    [0o166400, 0o167777].all (fun w => isUnrecognized (decode (ctx60 .char) w)) = true ∧
    [0o166377, 0o170000].any (fun w => isUnrecognized (decode (ctx60 .char) w)) = false := by decide

theorem witness_StepRunsTheDecodedInstruction :
    (placed vs60 0o107000).todo = [quiet vs60] ∧ (placed vs60 0o107000).ph.ready = true ∧
    (placed vs60 0o107000).run = .running ∧ (placed vs60 0o107000).pend = noPend ∧
    (placed vs60 0o107000).ctlPend = none ∧ (placed vs60 0o107000).pendHalf = none ∧
    (placed vs60 0o107000).clipPend = none ∧ (quietInput vs60).tip = (placed vs60 0o107000).flags.tipSw ∧
    (quietInput vs60).timeout = false ∧ (placed vs60 0o107000).cfg.encoding = .spec ∧
    decode (decodeCtx (placed vs60 0o107000)) (fetchWord defaultParams (placed vs60 0o107000).mem 0) =
      .sgmSvect ⟨true, 4, false, false, false, false, false, 0⟩ := by decide

/-- The other kinds of work of a cycle: a clipped remainder, a held half, an operand awaited, a word without a row;
and a change of the tip switch with the pen disabled, and with console 0 disabled. -/
theorem witness_StepRunsTheDecodedInstruction_work :
    ({ placed vs60 0 with clipPend := some ⟨[], none⟩ } : State).clipPend = some ⟨[], none⟩ ∧
    ({ placed vs60 0 with pendHalf := some ⟨.char, 0o101⟩ } : State).pendHalf = some ⟨.char, 0o101⟩ ∧
    ({ placed vs60 0o107000 with ctlPend := some .lassoc } : State).ctlPend = some .lassoc ∧
    corrected.row .vs60 (fetchWord defaultParams (placed vs60 0o154060).mem 0) = none ∧
    ((corrected.row .vs60 (fetchWord defaultParams (placed vs60 0o150005).mem 0)).map EncRow.twoWords) = some true ∧
    ((corrected.row .vs60 (fetchWord defaultParams (placed vs60 0o166405).mem 0)).map EncRow.twoWords) = some false ∧
    (fetchWord defaultParams (placed vs60 0o042400).mem 0).getLsbD 15 = false ∧
    correctedMachine.cfg.encoding = .table corrected ∧
    true ≠ vs60.flags.tipSw ∧ vs60.P.lpIntrEna = false ∧ (runs 0o165402 vs60).regs.cons0 = false := by decide +kernel

theorem witness_StepWithoutOperationIsACycle : vs60.todo = [] := by decide

theorem witness_LatchedRequestIsTakenBeforeAnyWork :
    (raise .nameMatch (running vs60)).todo = [quiet vs60] ∧ (raise .nameMatch (running vs60)).ph.ready = true ∧
    (raise .nameMatch (running vs60)).run = .running ∧ (raise .nameMatch (running vs60)).pend ≠ noPend ∧
    (running penned).pend = noPend ∧
    (true != (running penned).flags.tipSw && (running penned).P.lpIntrEna && (running penned).regs.cons0) = true := by
  decide

theorem witness_WaitingCycleOnlyAges :
    (told (quiet vs60) vs60).ph.ready = true ∧ (told (quiet vs60) vs60).run ≠ .running ∧
    ({ told (quiet vs60) vs60 with run := .awaitSync } : State).run = .awaitSync := by decide

theorem witness_StepsAnswerUnlessUninitialized :
    vs60.ph.ready = true ∧ (initFail .badScale (told .reset vs60)).ph.ready = false ∧
    (initFail .badScale vs60).todo = [] ∧ (initFail .badScale (running vs60)).todo = [quiet vs60] := by decide

theorem witness_StepKeepsParametersAndMemory :
    (∃ t, step (told (.store 0o1001 0o107000) vs60) = .next t ∧ fetchWord defaultParams t.mem 0o1000 = 0o107000) ∧
    ∃ t, step (told .extStop vs60) = .next t := ⟨⟨_, rfl, by decide⟩, ⟨_, rfl⟩⟩

theorem witness_SgmLoadsModeAndSelectedFields (f : SgmFields) :
    ((.sgmAbsvec f, .absvec) : Instr × Mode) ∈ ([(.sgmChar f, .char), (.sgmSvect f, .svect), (.sgmLvect f, .lvect),
      (.sgmPoint f, .point), (.sgmGraphx f, .graphx), (.sgmGraphy f, .graphy), (.sgmRelpoint f, .relpoint),
      (.sgmBsvect f, .bsvect), (.sgmCircle f, .circle), (.sgmAbsvec f, .absvec)] : List (Instr × Mode)) := by simp

theorem witness_LsraLoadsThenStopsOrWaits :
    dstopFields.stop = true ∧ (LsraFields.ofWord 0o170010).stop = false ∧ (LsraFields.ofWord 0o170010).sync ≠ 0 ∧
    vs60.cfg.variant ≠ .vt11 ∧ vt11.cfg.variant = .vt11 ∧ vt11.cfg.encoding = .spec ∧
    (LsraFields.ofWord 0o170010).sync &&& 1 = 0 := by decide

theorem witness_LdnrLoadsAndTestsTheName :
    (named.regs.nameIntrEna = true ∧ 5 = named.regs.assoc) ∧ ¬(named.regs.nameIntrEna = true ∧ 6 = named.regs.assoc) ∧
    ¬(vs60.regs.nameIntrEna = true ∧ 0 = vs60.regs.assoc) := by decide

theorem witness_AwaitedWordIsTheOperand :
    (runs 0o160000 vs60).ctlPend = some .djmpAbs ∧ (runs 0o166000 vs60).ctlPend = some .lassoc ∧
    (runs 0o162000 vs60).ctlPend = some .djsrAbs ∧ 0 < (runs 0o162000 vs60).sp.val ∧
    (runs 0o162000 { vs60 with sp := 0 }).ctlPend = some .djsrAbs ∧ (runs 0o162000 { vs60 with sp := 0 }).sp = 0 ∧
    (nextOf (dispatchWord 0o150005 correctedMachine) vs60).ctlPend = some (.held 0o150005) ∧
    (corrected.row .vs60 0o150005).map EncRow.op = some .ldnr ∧ EncRow.op (row .lassoc 8 0b11101100 []) = .lassoc ∧
    (corrected.row .vs60 0o160100).map EncRow.op = some .djmpAbs ∧
    (corrected.row .vs60 0o162000).map EncRow.op = some .djsrAbs := by decide +kernel

theorem witness_RelativeJumpsAndCalls :
    0 < vs60.sp.val ∧ 0 < ({ vs60 with sp := 1 } : State).sp.val ∧ ({ vs60 with sp := 0 } : State).sp = 0 := by decide

theorem witness_PopsReturnAndRestore :
    oneFrame.sp.val < 8 ∧ ({ vs60 with sp := 0 } : State).sp.val < 8 ∧ vs60.sp = 8 := by decide

theorem witness_ReturnUndoesTheCall : 0 < vs60.sp.val ∧ ∃ t, exec (.djsrRel 3) vs60 = .next t := ⟨by decide, ⟨_, rfl⟩⟩

theorem witness_UnrecognizedOpcodeHangs :
    [Instr.illegalSub5 0, .illegalSub6 0, .illegalSub7 0, .illegalOp7 0, .illegalOp8 0, .illegalOp9 0, .illegalOp10 0,
      .illegalOp11 0].all isUnrecognized = true := by decide

theorem witness_ShortItemsMoveByScaledDeltas :
    (drawing vs60 .svect 0 0).acc = [] ∧ vs60.cfg.encoding = .spec := by decide

theorem witness_LongAndAbsoluteVectorsMoveAndDraw (g h : DeltaFields) (c d : CoordFields) :
    (zWords vs60 = false ∧ ({ vs60 with acc := [g.toWord] } : State).acc = [g.toWord]) ∧
    (zWords withZ = true ∧ ({ withZ with acc := [g.toWord, h.toWord] } : State).acc = [g.toWord, h.toWord]) ∧
    (vs60.cfg.variant = .vs60 ∧ ({ vs60 with acc := [c.toWord] } : State).acc = [c.toWord]) ∧
    ({ withZ with acc := [c.toWord, d.toWord] } : State).acc = [c.toWord, d.toWord] ∧ vs60.cfg.encoding = .spec ∧
    withZ.cfg.encoding = .spec :=
  ⟨⟨rfl, rfl⟩, ⟨rfl, rfl⟩, ⟨rfl, rfl⟩, rfl, rfl, rfl⟩

theorem witness_PointAndGraphplotItemsMoveAndPlot (c d : CoordFields) :
    (vt11.cfg.variant = .vt11 ∧ ({ vt11 with acc := [c.toWord] } : State).acc = [c.toWord]) ∧
    (vs60.cfg.variant = .vs60 ∧ (default : CoordFields).off = false ∧ zWords vs60 = false) ∧
    (zWords withZ = true ∧ ({ withZ with acc := [c.toWord, d.toWord] } : State).acc = [c.toWord, d.toWord]) ∧
    vs60.acc = [] ∧ isOffsetItem vs60 .point [(default : CoordFields).toWord] = false ∧ vs60.cfg.encoding = .spec ∧
    vt11.cfg.encoding = .spec ∧ withZ.cfg.encoding = .spec :=
  ⟨⟨rfl, rfl⟩, ⟨rfl, rfl, rfl⟩, ⟨rfl, rfl⟩, rfl, by decide, rfl, rfl, rfl⟩

theorem witness_OffsetItemsLoadTheOffsets (d : CoordFields) :
    (CoordFields.ofWord 0o010144).off = true ∧ vs60.cfg.variant = .vs60 ∧ zWords vs60 = false ∧ zWords withZ = true ∧
    ({ vs60 with acc := [d.toWord] } : State).acc = [d.toWord] ∧ isOffsetItem vs60 .point [0o010144, 5] = true ∧
    vs60.cfg.encoding = .spec ∧ withZ.cfg.encoding = .spec := ⟨rfl, rfl, rfl, rfl, rfl, rfl, rfl, rfl⟩

theorem witness_CircleItemsDrawTheArc (a b c d e : DeltaFields) :
    (zWords vs60 = false ∧
      ({ vs60 with acc := [a.toWord, b.toWord, c.toWord] } : State).acc = [a.toWord, b.toWord, c.toWord]) ∧
    zWords withZ = true ∧
    ({ withZ with acc := [a.toWord, b.toWord, c.toWord, d.toWord, e.toWord] } : State).acc =
      [a.toWord, b.toWord, c.toWord, d.toWord, e.toWord] ∧ vs60.cfg.encoding = .spec ∧ withZ.cfg.encoding = .spec :=
  ⟨⟨rfl, rfl⟩, rfl, rfl, rfl, rfl⟩

theorem witness_WordsOfAnItemAreAssembled (f : DeltaFields) (g : CoordFields) (a b c d e : Word) :
    ((.circleData f, .circle, circleItem) : Instr × Mode × (List Word → State → State)) ∈
      ([(.lvectData f, .lvect, lvectItem), (.circleData f, .circle, circleItem), (.pointData g, .point, pointModeItem)]
        : List (Instr × Mode × (List Word → State → State))) ∧
    [a, b].length < itemWords vs60 .circle [a, b] ∧ itemWords vs60 .circle [a, b, c, d] ≤ [a, b, c, d].length ∧
    vs60.cfg.encoding = .spec ∧ zWords vs60 = false ∧ ({ vs60 with acc := [a, b] } : State).acc = [a, b] ∧
    ({ vs60 with acc := [a, b, c, d] } : State).acc = [a, b, c, d] ∧
    ({ vs60 with acc := [a, b, c, d, e] } : State).acc = [a, b, c, d, e] ∧
    correctedMachine.cfg.encoding = .table corrected ∧
    (corrected.item .lvect false).operands[1]? = some (signedAt 0 12 0 12) := by
  refine ⟨by simp, ?_, ?_, rfl, rfl, rfl, rfl, rfl, rfl, rfl⟩
  · show 2 < 4
    decide
  · show 4 ≤ 4
    decide

/-- A VS60 with the terminate character "A" enabled. -/
def terminating : State :=
  { vs60 with P := { vs60.P with charEsc := true }, regs := { vs60.regs with termChar := 0o101 } }

theorem witness_PairWordsRunTheirTwoItems :
    charPair vs60.cfg.encoding ⟨0o102, false, 0o101⟩ = (0o101, 0o102) ∧
    bsvectPair vs60.cfg.encoding ⟨false, 0o130, 0o110⟩ = (0o110, 0o130) ∧
    (charItem 0o101 terminating).2 = true ∧
    ((charItem 0o101 vs60).2 = false ∧ (charItem 0o101 vs60).1.pend = noPend) ∧
    ((charItem 0o101 { drawing vs60 .char 1010 0 with P := { vs60.P with edgeIntrEna := true } }).2 = false ∧
      (charItem 0o101 { drawing vs60 .char 1010 0 with P := { vs60.P with edgeIntrEna := true } }).1.pend ≠ noPend) ∧
    (bsvItem 0o110 vs60).pend = noPend ∧ (bsvItem 0o110 penned).pend = noPend ∧
    (bsvItem 0o130 penned).pend = noPend ∧ (bsvItem 0o110 (drawing penned .bsvect 3 0)).pend ≠ noPend := by decide

theorem witness_DataWordsChangeOnlyWhatDrawingMay :
    (.absvecData default : Instr) ∈ ([.svectData default, .relpointData default, .lvectData default,
      .circleData default, .graphxData default, .graphyData default, .absvecData default] : List Instr) ∧
    vt11.cfg.variant = .vt11 ∧ vs60.P.charEsc = false ∧
    (0o102 : BitVec 7) ≠ terminating.regs.termChar ∧ terminating.P.charEsc = true := by decide

/-- A machine whose character fault is raised at "A" and at SO. -/
def faulting : State := { vs60 with cfg := { defaultParams with charFault := .codes [0o101, 0o016] } }

theorem witness_CharacterCodesMoveShiftOrPrint :
    charFaultHolds 0o015 vs60 = false ∧ charFaultHolds 0o102 faulting = false ∧ vs60.P.charEsc = false ∧
    (0o102 : BitVec 7) ≠ terminating.regs.termChar ∧
    ((0 : BitVec 7).toNat < 0o040 ∧ (0 : BitVec 7) ∉ ([0o010, 0o012, 0o015, 0o016, 0o017] : List (BitVec 7))) ∧
    ((0o037 : BitVec 7).toNat < 0o040 ∧ (0o037 : BitVec 7) ∉ ([0o010, 0o012, 0o015, 0o016, 0o017] : List (BitVec 7))) ∧
    0o040 ≤ (0o040 : BitVec 7).toNat ∧ vs60.cfg.cw = 14 ∧ vs60.cfg.lh = 24 ∧
    (vs60.cfg.variant = .vs60 ∧ vs60.cfg.renderer = .stroke) ∧ vt11.cfg.renderer = .dotMatrix := by decide

theorem witness_GlyphsAdvanceAndAreDrawnWholeOrNot :
    (inViewport screen ⟨1009, 0, 0⟩ = true ∧ inViewport screen ⟨1023, 0, 0⟩ = true) ∧
    inViewport screen ⟨1024, 0, 0⟩ = false ∧ inViewport screen ⟨-1, 0, 0⟩ = false ∧
    advanced (drawing vs60 .char 1010 0) = ⟨1024, 0, 0⟩ ∧ advanced (drawing vs60 .char (-14) 0) = ⟨0, 0, 0⟩ ∧
    edgesOn { vs60 with P := { vs60.P with edgeIntrEna := true } } = true ∧ edgesOn vs60 = false ∧
    viewport vs60 = screen ∧ vt11.cfg.renderer = .dotMatrix ∧ vs60.cfg.renderer = .stroke := by decide

theorem witness_GlyphIsOneUnitForTheLightPen :
    vs60.P.lpIntrEna = false ∧ penned.P.lpIntrEna = true ∧ penHits penned ⟨0, 0, 0, 4, 0⟩ = false ∧
    penHits penned ⟨4, 0, 0, 4, 0⟩ = true ∧ penHits penned ⟨3, 0, 0, 4, 0⟩ = false ∧
    ([⟨0, 0, 0⟩, ⟨4, 0, 0⟩, ⟨5, 0, 0⟩].map (pixelAt penned)) =
      [⟨0, 0, 0, 4, 0⟩] ++ ⟨4, 0, 0, 4, 0⟩ :: [⟨5, 0, 0, 4, 0⟩] := by decide

theorem witness_TerminateCharacterReturns :
    charPair terminating.cfg.encoding ⟨0o101, false, 0o102⟩ = (0o102, 0o101) ∧
    terminating.cfg.variant = .vs60 ∧ terminating.P.charEsc = true ∧ (0o101 : BitVec 7) = terminating.regs.termChar ∧
    (0o102 : BitVec 7) ≠ terminating.regs.termChar ∧ (charItem 0o102 terminating).2 = false ∧
    (charItem 0o102 terminating).1.pend = noPend := by decide

theorem witness_FaultedCharacterIsNotDrawn :
    charFaultHolds 0o101 faulting = true ∧ terminates 0o101 faulting = false ∧
    charFaultHolds 0o016 faulting = true ∧ terminates 0o016 faulting = false ∧
    (charItem 0o102 faulting).1.flags.charFault = false ∧
    edgesOn faulting = false ∧ vs60.cfg.charFault = .never := by decide

/-- A faulted "A" has advanced by 14 and reported, and nothing is lit; a faulted SO has shifted and reported (R159). -/
theorem test_faulted_character_moves (t : State) (h : t = (charItem 0o101 faulting).1) :
    (t.flags.charFault = true ∧ t.pos = ⟨14, 0, 0⟩ ∧ t.rpt = ⟨14, 0, 0⟩ ∧ t.ph.cells = []) ∧
    (charItem 0o016 { faulting with pos := ⟨5, 6, 7⟩ }).1.rpt = ⟨5, 6, 7⟩ ∧
    (charItem 0o016 faulting).1.regs.so = true := by
  refine ⟨?_, by decide⟩
  replace h : t = faultedGlyph 0o101 (moveTo faulting.pos (raise .charFault
    { faulting with flags := { faulting.flags with charFault := true } })) := h
  subst h
  unfold faultedGlyph
  dsimp only
  split <;> decide

theorem witness_VectorAndPointItemsFollowTheClipTag :
    clip screen ⟨-10, 0, 0⟩ ⟨-110, 0, 0⟩ = none ∧
    clip screen ⟨0, 0, 0⟩ ⟨1023, 1023, 0⟩ = some ⟨.visibleUnclipped, ⟨0, 0, 0⟩, ⟨1023, 1023, 0⟩⟩ ∧
    clip screen ⟨0, 0, 0⟩ ⟨-100, 0, 0⟩ = some ⟨.clippedExit, ⟨0, 0, 0⟩, ⟨0, 0, 0⟩⟩ ∧
    clip screen ⟨-100, 500, 0⟩ ⟨100, 500, 0⟩ = some ⟨.clippedEntry, ⟨0, 500, 0⟩, ⟨100, 500, 0⟩⟩ ∧
    clip screen ⟨-1, 7, 0⟩ ⟨1024, 7, 0⟩ = some ⟨.clippedBoth, ⟨0, 7, 0⟩, ⟨1023, 7, 0⟩⟩ ∧
    vs60.cfg.menuEffect = .reference ∧ vs60.regs.menu = false ∧ vt11.cfg.variant = .vt11 := by decide

theorem witness_RunsStopAtTheFirstHitActedOn :
    vs60.P.lpIntrEna = false ∧ penned.P.lpIntrEna = true ∧ penHits penned ⟨3, 0, 0, 4, 0⟩ = false ∧
    penHits penned ⟨4, 0, 0, 4, 0⟩ = true ∧ penHits penned ⟨6, 0, 0, 4, 0⟩ = true ∧
    penHits penned ⟨7, 0, 0, 4, 0⟩ = false := by decide

theorem witness_UnlitItemsLightNothing :
    ({ vs60 with P := { vs60.P with blinkEna := true }, blinkOn := false } : State).P.blinkEna = true ∧
    ({ vs60 with P := { vs60.P with blinkEna := true }, blinkOn := false } : State).blinkOn = false ∧
    (runs 0o165402 vs60).regs.cons0 = false := by decide

theorem witness_DashedRunsFollowTheCounter : Machine.lit vs60 true = true := by decide

theorem witness_ClippedEndPointsLieInTheViewport :
    (inViewport screen ⟨0, 0, 0⟩ = true ∧ inViewport screen ⟨1023, 1023, 0⟩ = true) ∧
    (clip screen ⟨-1, -1, 0⟩ ⟨1024, 1024, 0⟩).isSome = true ∧
    inViewport screen ⟨-1, -1, 0⟩ = false ∧ inViewport screen ⟨1024, 1024, 0⟩ = false ∧
    clip screen ⟨-10, 0, 0⟩ ⟨20, 7, 100⟩ = some ⟨.clippedEntry, ⟨0, 2, 33⟩, ⟨20, 7, 100⟩⟩ := by decide

theorem witness_RasterLinesKeepTheirProperties :
    0 < max ((4 : Int) - 0).natAbs ((2 : Int) - 0).natAbs ∧
    defaultParams.rasterize = .reference ∧
    (raster defaultParams ⟨0, 0, 0⟩ ⟨4, 2, 10⟩)[0]? = some ⟨0, 0, 0⟩ ∧
    (raster defaultParams ⟨0, 0, 0⟩ ⟨4, 2, 10⟩)[1]? = some ⟨1, 1, 2⟩ ∧
    (raster defaultParams ⟨0, 0, 0⟩ ⟨2, -4, 0⟩)[1]? = some ⟨1, -1, 0⟩ := by decide

theorem witness_ArcVerticesKeepTheirProperties : 1 ≤ defaultParams.arcMax ∧
    (⟨10, 0, 0⟩ : Pt3) ∈ arcVertices defaultParams ⟨0, 0, 0⟩ ⟨0, 0, 0⟩ ⟨10, 0, 0⟩ := by decide +kernel

/-- The engine's invariant on a machine with one lit cell. -/
theorem glowing_phosphorOk : PhosphorOk glowing.ph := by
  have h : ∀ k, cellAt glowing.ph k = if k = 5 then ⟨4, 8, 0, 10000⟩ else darkCell := fun k => by
    simp only [cellAt, glowing, sparseGet]
  refine ⟨by decide, by decide, by decide, by decide, fun k => ?_, fun k => ?_, by decide, by decide⟩
  · rw [h]
    by_cases hk : k = 5 <;> simp [hk, darkCell, glowing]
  · rw [h]
    by_cases hk : k = 5 <;> simp [hk, darkCell]
    decide

theorem witness_IlluminateLightsOneCell :
    PhosphorOk glowing.ph ∧ onGrid glowing.ph (-1) 0 = false ∧ onGrid glowing.ph 1024 0 = false ∧
    onGrid glowing.ph 5 0 = true ∧ onGrid glowing.ph 1023 1023 = true ∧ glowing.cfg.brighten = false ∧
    ({ defaultParams with brighten := true } : Params).brighten = true :=
  ⟨glowing_phosphorOk, by decide, by decide, by decide, by decide, rfl, rfl⟩

theorem witness_AgedCellsGoDarkOnTime :
    PhosphorOk glowing.ph ∧ 0 < (cellAt (age 79999 glowing).ph 5).ttl ∧
    darkTime glowing.ph 5 ≤ glowing.ph.clock + 80000 ∧ ¬darkTime glowing.ph 5 ≤ glowing.ph.clock + 79999 ∧
    (age 10000 glowing).ph.queue = [5] ∧ onGrid glowing.ph 5 0 = true :=
  ⟨glowing_phosphorOk, by decide, by decide, by decide, by decide, by decide⟩

theorem witness_InitSelectsAProfileOrFails :
    (told (.init 7 1) vs60).todo = [.init 7 1] ∧ (∀ p ∈ vs60.cfg.profiles, p.name ≠ 7) ∧
    vs60.cfg.profiles = [] ++ refProfile :: [] ∧ refProfile.name = 0 ∧ 0 < refProfile.refreshTicks ∧
    refProfile.refreshTicks ≤ vs60.cfg.tickMax ∧
    ({ vs60.cfg with tickMax := 9999 } : Params).tickMax < refProfile.refreshTicks := by decide

theorem witness_FetchReturnsTheStoredWord :
    1 ≤ defaultParams.addrBits ∧ Memory.wf defaultParams [(3, 5)] = true ∧ WordAddr defaultParams 0xFFFE ∧
    WordAddr defaultParams 0 := by
  unfold WordAddr
  decide

theorem witness_CheckTakesTheHighestRequest :
    vs60.pend = noPend ∧ reasonTable[3]? = some (.externalStop, .stop) ∧
    pendGet ({ noPend with externalStop := true, nameMatch := true } : Pend) .externalStop = true ∧
    reasonTable[0]? = some (.lightPenHit, .surface) ∧ pendGet ({ noPend with lightPenHit := true } : Pend) .lightPenHit = true ∧
    (reasonTable.take 3).all (fun e => pendGet { noPend with externalStop := true, nameMatch := true } e.1) = false := by
  decide

theorem witness_CycleNotifiesAtMostOnce :
    ∃ t, step (raise .nameMatch (running vs60)) = .next t ∧ t.out = [.flush, .notify .name] := ⟨_, rfl, by decide⟩

theorem witness_TimedOutFetchCanBeRetried :
    (running vs60).ph.ready = true ∧ (running vs60).run = .running ∧ (running vs60).pend = noPend ∧
    (running vs60).pendHalf = none ∧ (running vs60).clipPend = none ∧
    ({ quietInput vs60 with timeout := true } : CycleIn).tip = (running vs60).flags.tipSw ∧
    ({ quietInput vs60 with timeout := true } : CycleIn).timeout = true ∧ vs60.P.lpIntrEna = false ∧
    (runs 0o165402 vs60).regs.cons0 = false := by decide

theorem witness_StartAndExternalStop :
    (0o1000 : Word).getLsbD 0 = false ∧ (told (.setDpc 0o1000) vs60).todo = [.setDpc 0o1000] ∧
    (told (.hostWrite 0 0o1000) vs60).todo = [.hostWrite 0 0o1000] ∧ (told .extStop vs60).todo = [.extStop] := by decide

/-- A vector stopped by the light pen, with a RESUME listed; `e` the exit point it has yet to reach. -/
def stoppedByPen (e : Option Pt3) : State :=
  { told (.setDpc 1) penned with run := .awaitResume .lightPenHit, lpCont := some ⟨[⟨5, 0, 0, 4, 0⟩], e⟩ }

theorem witness_ResumeFinishesTheStoppedPrimitive :
    (stoppedByPen none).todo = [.setDpc 1] ∧ (told (.hostWrite 0 1) (stoppedByPen none)).todo = [.hostWrite 0 1] ∧
    (1 : Word).getLsbD 0 = true ∧ (∀ r, vs60.run ≠ .awaitResume r) ∧
    (stoppedByPen none).run = .awaitResume .lightPenHit ∧
    (stoppedByPen none).lpCont = some ⟨[⟨5, 0, 0, 4, 0⟩], none⟩ ∧
    (stoppedByPen (some ⟨9, 0, 0⟩)).lpCont = some ⟨[⟨5, 0, 0, 4, 0⟩], some ⟨9, 0, 0⟩⟩ ∧
    ({ stoppedByPen none with lpCont := none } : State).lpCont = none := by
  refine ⟨rfl, rfl, by decide, fun r => ?_, rfl, rfl, rfl, rfl⟩
  cases r <;> decide

theorem witness_WaitStatesAreLeftOnlyAsStated :
    (∃ t, step (told (.setDpc 0o1000) vs60) = .next t ∧ vs60.run = .halted ∧ t.run = .running) ∧
    (∃ t, step (told .reset { vs60 with run := .hung }) = .next t ∧ t.run = .halted) ∧
    (∃ t, step (stoppedByPen none) = .next t ∧ t.run = .running) ∧
    ∃ t, step { running vs60 with run := .awaitSync } = .next t ∧ t.run = .running :=
  ⟨⟨_, rfl, by decide, by decide⟩, ⟨_, rfl, by decide⟩, ⟨_, rfl, by decide⟩, ⟨_, rfl, by decide⟩⟩

theorem witness_RegisterReadsReturnTheirFields :
    (told (.hostRead 3) vs60).todo = [.hostRead 3] ∧ vs60.cfg.hostRegLayout = .reference ∧ vs60.cfg.variant = .vs60 ∧ vt11.cfg.variant = .vt11 ∧
    vs60.regs.stackAddr = 8 ∧ vt11.cfg.hostRegLayout = .reference ∧ (hostWrite 13 7 oneFrame).regs.stackAddr.val = 7 ∧
    hostRead 11 (hostWrite 13 7 oneFrame) = 0o504 := by decide

theorem witness_RegisterWritesHaveTheirEffects :
    vt11.cfg.variant = .vt11 ∧ vs60.cfg.variant = .vs60 ∧ vs60.cfg.hostRegLayout = .reference ∧
    vs60.ph.profile.nColors ≠ 2 ∧
    ({ vs60.ph.profile with nColors := 2 } : Profile).nColors = 2 := by decide

theorem witness_ResetGivesTheStatedValues : (told .reset vs60).todo = [.reset] := by decide

theorem witness_StepKeepsMemoryCanonical :
    MemoryOk (told (.store 0 5) vs60) ∧ ∃ t, step (told (.store 0 5) vs60) = .next t :=
  ⟨by unfold MemoryOk; decide, ⟨_, rfl⟩⟩

theorem witness_StepKeepsAddressesAligned :
    oneFrame.cfg.legal = true ∧ Aligned (placed oneFrame 0o164400) ∧
      ∃ t, step (placed oneFrame 0o164400) = .next t :=
  ⟨by decide, by unfold Aligned WordAddr; decide, ⟨_, rfl⟩⟩

/-- A machine in LVECT with the first word of an item, its second word placed. -/
def midItem : State := placed { drawing vs60 .lvect 0 0 with acc := [0o040144] } 0o000144

theorem witness_StepKeepsItemsWithinTheirMode :
    ItemOk midItem ∧ midItem.acc.length = 1 ∧ ∃ t, step midItem = .next t :=
  ⟨⟨by decide, fun h e => by cases e⟩, by decide, ⟨_, rfl⟩⟩

theorem witness_StepKeepsContinuationsInTheirWait :
    WaitsOk (stoppedByPen none) ∧ (stoppedByPen none).lpCont ≠ none ∧ ∃ t, step (stoppedByPen none) = .next t :=
  ⟨⟨fun _ => rfl, fun h => by rcases h with h | h <;> cases h⟩, by decide, ⟨_, rfl⟩⟩

theorem witness_StepKeepsVt11Confined :
    vt11.cfg.legal = true ∧ vt11.cfg.variant = .vt11 ∧ Vt11Confined (placed vt11 0o107000) ∧
    ∃ t, step (placed vt11 0o107000) = .next t := by
  refine ⟨by decide, by decide, fun _ => ?_, ⟨_, rfl⟩⟩
  simp [placed, State.withFetchWord, vt11, State.reset, defaultParamsFor, defaultParams, defaultParamSet, resetRegs, noFlags, noPend,
    modeOnVt11]

theorem witness_StepKeepsThePhosphorInvariant :
    glowing.cfg.legal = true ∧ PhosphorOk (running glowing).ph ∧ ∃ t, step (running glowing) = .next t :=
  ⟨by decide, glowing_phosphorOk, ⟨_, rfl⟩⟩

theorem witness_ResetMeetsTheInvariants : vt11.cfg.legal = true ∧ vt11.cfg.variant = .vt11 := by decide

end Sys2Proof.Tests
end

