-- ==== Sys2Proof/Proofs/StepRule.lean ====
section
/-! PROOFS. How a property of states is carried through a step: what a result ensures of its next state, the rule of
the cycle (R75) and the rule of the step (R74), each said once for every property. -/

namespace Sys2Proof.Machine

/-- The next state that a result answers, if it answers one, has the property. -/
def Ensures (P : State → Prop) (r : Result) : Prop := ∀ t, r = .next t → P t

theorem Ensures.next {P : State → Prop} {s : State} (h : P s) : Ensures P (.next s) := by
  rintro t ⟨⟩
  exact h

theorem Ensures.refused {P : State → Prop} (e : Refusal) : Ensures P (.refused e) := by
  rintro t ⟨⟩

theorem Ensures.imp {P Q : State → Prop} {r : Result} (h : Ensures P r) (hpq : ∀ t, P t → Q t) : Ensures Q r :=
  fun t ht => hpq t (h t ht)

theorem Ensures.thenDo {P Q : State → Prop} {r : Result} {f : State → State} (h : Ensures P r)
    (hf : ∀ t, P t → Q (f t)) : Ensures Q (thenDo r f) := by
  cases r with
  | next s => exact .next (hf s (h s rfl))
  | fault e => cases e
  | refused e => exact .refused e

/-- A property of states that each part of a cycle keeps (R75): the sample, the count, the three kinds of work with the
timeout of a fetch, the check and the aging. -/
structure CycleKeeps (P : State → Prop) : Prop where
  sample : ∀ inp s, P s → P (sample inp s)
  countCycle : ∀ s, P s → P (countCycle s)
  clipStep : ∀ c s, P s → s.clipPend = some c → P (clipStep c s)
  halfStep : ∀ h s, P s → s.pendHalf = some h → P (halfStep h s)
  fetchTimeout : ∀ s, P s → P (fetchTimeout s)
  dispatchWord : ∀ w s, P s → Ensures P (dispatchWord w (advanceDpc s))
  check : ∀ s, P s → P (check s)
  age : ∀ e s, P s → P (age e s)

/-- The one unit of work keeps what its three kinds keep (R75). -/
theorem CycleKeeps.work {P : State → Prop} (hP : CycleKeeps P) (timeout : Bool) {s : State} (hs : P s) :
    Ensures P (work timeout s) := by
  unfold Machine.work
  split
  · split
    · next c hc => exact .next (hP.clipStep c s hs hc)
    · split
      · next h hh => exact .next (hP.halfStep h s hs hh)
      · cases timeout with
        | true => exact .next (hP.fetchTimeout s hs)
        | false => exact hP.dispatchWord _ s hs
  · exact .next hs

/-- A cycle keeps what its parts keep (R75). -/
theorem CycleKeeps.cycle {P : State → Prop} (hP : CycleKeeps P) (inp : CycleIn) {s : State} (hs : P s) :
    Ensures P (cycle inp s) := by
  have hsample : P (Machine.countCycle (Machine.sample inp s)) := hP.countCycle _ (hP.sample inp s hs)
  unfold Machine.cycle
  dsimp only
  split
  · split
    · exact (hP.work inp.timeout hsample).thenDo fun t ht => hP.age inp.elapsed _ (hP.check t ht)
    · exact .next (hP.age inp.elapsed _ hsample)
  · exact .refused _

/-- A step is a cycle on free inputs where no operation is listed, else the host's next operation (R74; log 3). -/
theorem step_ensures {P : State → Prop} {s : State}
    (hfree : s.todo = [] → Ensures P (cycle (Config.freeInput s.tick) { s with out := [] }))
    (hop : ∀ op rest, s.todo = op :: rest → Ensures P (hostStep op { s with out := [], todo := rest })) :
    Ensures P (step s) := by
  unfold step transition
  dsimp only
  split
  · next h => exact hfree h
  · next op rest h => exact hop op rest h

/-- The row that an encoding gives a control word is an instruction of the variant (R50, R67). -/
theorem tableRow_opOnVariant {e : Encoding} {v : Variant} {w : Word} {r : EncRow} (h : tableRow e v w = some r) :
    opOnVariant v r.op = true := by
  cases e with
  | spec => cases h
  | table t => exact EncTable.row_opOnVariant h

end Sys2Proof.Machine
end

