-- ==== Sys2Proof/Proofs/HostSide.lean ====
section
/-! PROOFS. O10: the parameters, the memory and the list of operations are the host's; every operation of the core, and
every operation of the host but the store, leaves all three as they are (R9, R37; logs 3, 25, 30). -/

namespace Sys2Proof.Machine

/-- What is the host's is the same in both states: the parameters, the memory and the operations still to come. -/
structure KeepsHost (s t : State) : Prop where
  cfg : t.cfg = s.cfg
  mem : t.mem = s.mem
  todo : t.todo = s.todo

theorem KeepsHost.refl (s : State) : KeepsHost s s := ⟨rfl, rfl, rfl⟩

theorem KeepsHost.trans {s t u : State} (h1 : KeepsHost s t) (h2 : KeepsHost t u) : KeepsHost s u :=
  ⟨h2.cfg.trans h1.cfg, h2.mem.trans h1.mem, h2.todo.trans h1.todo⟩

/-- The same, the second half first, from which the state between the two is known. -/
theorem KeepsHost.after {s t u : State} (h2 : KeepsHost t u) (h1 : KeepsHost s t) : KeepsHost s u := h1.trans h2

theorem Drawn.keepsHost {s t : State} (h : Drawn s t) : KeepsHost s t := by
  unfold Drawn at h
  rw [h]
  exact ⟨rfl, rfl, rfl⟩

/-! ## The shared operations -/

theorem keepsHost_sampleTip (tip : Bool) (s : State) : KeepsHost s (sampleTip tip s) := by
  unfold sampleTip
  dsimp only
  split_ifs <;> exact ⟨rfl, rfl, rfl⟩

theorem keepsHost_sample (inp : CycleIn) (s : State) : KeepsHost s (sample inp s) :=
  (keepsHost_sampleTip inp.tip _).after ⟨rfl, rfl, rfl⟩

theorem keepsHost_check (s : State) : KeepsHost s (check s) := by
  rw [check_eq]
  exact ⟨rfl, rfl, rfl⟩

theorem keepsHost_age (e : Nat) (s : State) : KeepsHost s (age e s) := by
  rw [age_eq]
  exact ⟨rfl, rfl, rfl⟩

theorem keepsHost_raiseStackFault (s : State) : KeepsHost s (raiseStackFault s) := by
  unfold raiseStackFault
  split <;> exact ⟨rfl, rfl, rfl⟩

theorem keepsHost_push (ret : Nat) (s : State) : KeepsHost s (push ret s).1 := by
  by_cases h : s.sp.val = 0
  · rw [push_of_full ret s h]
    exact (keepsHost_raiseStackFault _).after ⟨rfl, rfl, rfl⟩
  · rw [push_of_room ret s h]
    exact ⟨rfl, rfl, rfl⟩

theorem keepsHost_pop (restore : Bool) (s : State) : KeepsHost s (pop restore s) := by
  by_cases h : s.sp.val < 8
  · rw [pop_of_frame restore s h]
    split <;> exact ⟨rfl, rfl, rfl⟩
  · rw [pop_of_empty restore s h]
    exact (keepsHost_raiseStackFault _).after ⟨rfl, rfl, rfl⟩

theorem keepsHost_callSub (target : Nat) (s : State) : KeepsHost s (callSub target s) := by
  unfold callSub
  dsimp only
  split
  · exact (keepsHost_push s.dpc s).trans ⟨rfl, rfl, rfl⟩
  · exact keepsHost_push s.dpc s

/-! ## The items and the data words -/

theorem keepsHost_charCode (draw : Bool) (b : BitVec 7) (s : State) : KeepsHost s (charCode draw b s) :=
  (drawn_charCode draw b s).keepsHost.after ⟨rfl, rfl, rfl⟩

theorem keepsHost_charItem (b : BitVec 7) (s : State) : KeepsHost s (charItem b s).1 := by
  unfold charItem
  split_ifs
  · exact keepsHost_pop true s
  · exact (keepsHost_charCode false b _).after ⟨rfl, rfl, rfl⟩
  · exact keepsHost_charCode true b s

theorem keepsHost_pairItem (k : PairKind) (b : BitVec 7) (s : State) : KeepsHost s (pairItem k b s).1 := by
  cases k with
  | char => exact keepsHost_charItem b s
  | bsvect => exact (drawn_bsvItem b s).keepsHost

theorem keepsHost_execPair (k : PairKind) (b0 b1 : BitVec 7) (s : State) : KeepsHost s (execPair k b0 b1 s) := by
  have hfirst := keepsHost_pairItem k b0 s
  unfold execPair
  dsimp only
  split_ifs
  · exact hfirst
  · exact hfirst.trans (keepsHost_pairItem k b1 _)
  · exact hfirst.trans ⟨rfl, rfl, rfl⟩

theorem keepsHost_halfStep (h : Half) (s : State) : KeepsHost s (halfStep h s) :=
  (keepsHost_pairItem h.kind h.item _).after ⟨rfl, rfl, rfl⟩

theorem keepsHost_pointModeItem (ws : List Word) (s : State) : KeepsHost s (pointModeItem ws s) := by
  unfold pointModeItem
  split
  · exact ⟨rfl, rfl, rfl⟩
  · exact (drawn_pointItem ..).keepsHost

theorem keepsHost_assemble (m : Mode) {item : List Word → State → State} (hitem : ∀ ws s, KeepsHost s (item ws s))
    (w : Word) (s : State) : KeepsHost s (assemble m item w s) := by
  unfold assemble
  dsimp only
  split
  · exact (hitem _ _).after ⟨rfl, rfl, rfl⟩
  · exact ⟨rfl, rfl, rfl⟩

/-! ## The control instructions and the fetched word -/

theorem keepsHost_loadStatusA (f : LsraFields) (s : State) : KeepsHost s (loadStatusA f s) := by
  unfold loadStatusA
  dsimp only
  split_ifs <;> exact ⟨rfl, rfl, rfl⟩

theorem execLdnr_keepsHost (name : Nat) (s : State) : Ensures (KeepsHost s) (execLdnr name s) := by
  unfold execLdnr
  dsimp only
  split <;> exact .next ⟨rfl, rfl, rfl⟩

/-- No instruction's meaning changes what is the host's (R9, R37). -/
theorem exec_keepsHost (i : Instr) (s : State) : Ensures (KeepsHost s) (exec i s) := by
  cases i with
  | sgmChar f | sgmSvect f | sgmLvect f | sgmPoint f | sgmGraphx f | sgmGraphy f | sgmRelpoint f | sgmBsvect f
  | sgmCircle f | sgmAbsvec f => exact .next ⟨rfl, rfl, rfl⟩
  | lsrb f | lsrbVt11 ign f | lsrbb f | lsrc f | ldscope f => exact .next ⟨rfl, rfl, rfl⟩
  | djmpAbs ign | djmpAbsVt11 ign | djmpRel disp | djsrAbs ign | lassoc ign => exact .next ⟨rfl, rfl, rfl⟩
  | dnop ign | dnopVt11 ign => exact .next (.refl s)
  | illegalSub5 low | illegalSub6 low | illegalSub7 low | illegalOp7 low | illegalOp8 low | illegalOp9 low
  | illegalOp10 low | illegalOp11 low => exact .next ⟨rfl, rfl, rfl⟩
  | ldnr name => exact execLdnr_keepsHost name s
  | lsra f => exact .next (keepsHost_loadStatusA f s)
  | dstop => exact .next (keepsHost_loadStatusA dstopFields s)
  | djsrRel disp => exact .next (keepsHost_callSub _ s)
  | dpopNr ign => exact .next (keepsHost_pop false s)
  | dpopR ign => exact .next (keepsHost_pop true s)
  | charData f | bsvectData f => exact .next (keepsHost_execPair ..)
  | svectData f | lvectData f | absvecData f =>
    exact .next (keepsHost_assemble _ (fun ws s => (drawn_vecItem ..).keepsHost) _ s)
  | pointData f | offsetData f => exact .next (keepsHost_assemble .point keepsHost_pointModeItem _ s)
  | graphxData f | graphyData f | relpointData f =>
    exact .next (keepsHost_assemble _ (fun ws s => (drawn_pointItem ..).keepsHost) _ s)
  | circleData f => exact .next (keepsHost_assemble .circle (fun ws s => (drawn_arcItem ..).keepsHost) _ s)

theorem execRow_keepsHost (r : EncRow) (ws : List Word) (s : State) : Ensures (KeepsHost s) (execRow r ws s) := by
  obtain ⟨x, h⟩ | ⟨-, x, h⟩ | ⟨-, x, h⟩ | h := execRow_cases r ws s <;> rw [h]
  · exact .next ⟨rfl, rfl, rfl⟩
  · exact .next (keepsHost_callSub _ s)
  · exact .next ⟨rfl, rfl, rfl⟩
  · exact exec_keepsHost _ s

theorem execOperand_keepsHost (k : CtlPend) (w : Word) (s : State) :
    Ensures (KeepsHost s) (execOperand k w s) := by
  cases k with
  | djmpAbs | lassoc => exact .next ⟨rfl, rfl, rfl⟩
  | djsrAbs => exact .next (keepsHost_callSub _ s)
  | held first =>
    unfold execOperand
    dsimp only
    split
    · exact execRow_keepsHost _ _ s
    · exact .next ⟨rfl, rfl, rfl⟩

theorem execWord_keepsHost (w : Word) (s : State) : Ensures (KeepsHost s) (execWord w s) := by
  unfold execWord
  split
  · exact exec_keepsHost _ s
  · split_ifs
    · split
      · exact .next ⟨rfl, rfl, rfl⟩
      · split_ifs
        · exact .next ⟨rfl, rfl, rfl⟩
        · exact execRow_keepsHost _ _ s
    · exact exec_keepsHost _ s

theorem dispatchWord_keepsHost (w : Word) (s : State) : Ensures (KeepsHost s) (dispatchWord w s) := by
  unfold dispatchWord
  split
  · exact (execOperand_keepsHost _ w _).imp fun _ ht => ht.after ⟨rfl, rfl, rfl⟩
  · exact execWord_keepsHost w s

/-! ## The cycle and the host's operations -/

/-- No part of a cycle changes what is the host's (R9, R37). -/
theorem cycleKeeps_keepsHost (s₀ : State) : CycleKeeps (KeepsHost s₀) where
  sample inp s h := h.trans (keepsHost_sample inp s)
  countCycle _ h := h.trans ⟨rfl, rfl, rfl⟩
  clipStep c s h _ := h.trans (drawn_clipStep c s).keepsHost
  halfStep k s h _ := h.trans (keepsHost_halfStep k s)
  fetchTimeout _ h := h.trans ⟨rfl, rfl, rfl⟩
  dispatchWord w s h := (dispatchWord_keepsHost w (advanceDpc s)).imp fun _ ht => ht.after (h.trans ⟨rfl, rfl, rfl⟩)
  check s h := h.trans (keepsHost_check s)
  age e s h := h.trans (keepsHost_age e s)

theorem cycle_keepsHost (inp : CycleIn) (s : State) : Ensures (KeepsHost s) (cycle inp s) :=
  (cycleKeeps_keepsHost s).cycle inp (.refl s)

theorem keepsHost_resume (s : State) : KeepsHost s (resume s) := by
  by_cases h : ∃ r, s.run = .awaitResume r
  · obtain ⟨r, hr⟩ := h
    rw [resume_of_waiting s r hr]
    have hdraw := (drawn_drawRemainder { s with flags := clearReason r (clearStops s.flags) }).keepsHost
    exact ⟨hdraw.cfg, hdraw.mem, hdraw.todo⟩
  · rw [resume_of_not_waiting s fun r hr => h ⟨r, hr⟩]
    exact ⟨rfl, rfl, rfl⟩

theorem keepsHost_setDpc (v : Word) (s : State) : KeepsHost s (setDpc v s) := by
  unfold setDpc
  split
  · exact keepsHost_resume s
  · exact ⟨rfl, rfl, rfl⟩

theorem keepsHost_extStop (s : State) : KeepsHost s (extStop s) := by
  unfold extStop
  split <;> exact ⟨rfl, rfl, rfl⟩

theorem keepsHost_initEngine (name scale : Nat) (s : State) : KeepsHost s (initEngine name scale s) := by
  unfold initEngine
  split
  · exact ⟨rfl, rfl, rfl⟩
  · split_ifs <;> exact ⟨rfl, rfl, rfl⟩

theorem keepsHost_vs60Write {s t : State} (h : KeepsHost s t) : KeepsHost s (vs60Write s t) := by
  unfold vs60Write
  split
  · exact h
  · exact .refl s

theorem keepsHost_writeXPosition (v : Word) (s : State) : KeepsHost s (writeXPosition v s) := by
  unfold writeXPosition
  split <;> exact ⟨rfl, rfl, rfl⟩

theorem keepsHost_writeYPosition (v : Word) (s : State) : KeepsHost s (writeYPosition v s) := by
  unfold writeYPosition
  split <;> exact ⟨rfl, rfl, rfl⟩

theorem keepsHost_writeColor (v : Word) (s : State) : KeepsHost s (writeColor v s) := by
  unfold writeColor
  split <;> exact ⟨rfl, rfl, rfl⟩

theorem keepsHost_hostWrite (i : Fin 16) (v : Word) (s : State) : KeepsHost s (hostWrite i v s) := by
  unfold hostWrite
  split
  case h_1 => exact keepsHost_setDpc v s
  case h_3 => exact keepsHost_writeXPosition v s
  case h_4 => exact keepsHost_writeYPosition v s
  case h_10 => exact keepsHost_writeColor _ s
  case h_2 | h_6 | h_11 | h_12 => exact .refl s
  all_goals exact keepsHost_vs60Write ⟨rfl, rfl, rfl⟩

/-- No operation of the host but the store changes what is the host's (log 25). -/
theorem hostStep_keepsHost (op : HostOp) (s : State) (h : ∀ a w, op ≠ .store a w) :
    Ensures (KeepsHost s) (hostStep op s) := by
  cases op with
  | cycle inp => exact cycle_keepsHost inp s
  | setDpc v => exact .next (keepsHost_setDpc v s)
  | hostWrite i v => exact .next (keepsHost_hostWrite i v s)
  | hostRead i | reset => exact .next ⟨rfl, rfl, rfl⟩
  | extStop => exact .next (keepsHost_extStop s)
  | init name scale => exact .next (keepsHost_initEngine name scale s)
  | store a w => exact absurd rfl (h a w)

/-- A step whose operation is no store keeps the parameters and the memory, and consumes the operation (log 3). -/
theorem step_of_no_store (s : State) (h : ∀ a w, s.todo.head? ≠ some (.store a w)) :
    Ensures (fun t => t.cfg = s.cfg ∧ t.todo = s.todo.tail ∧ t.mem = s.mem) (step s) := by
  refine step_ensures (fun hnil => ?_) fun op rest hcons => ?_
  · refine (cycle_keepsHost _ { s with out := [] }).imp fun t ht => ⟨ht.cfg, ?_, ht.mem⟩
    rw [ht.todo, hnil]
    rfl
  · have hop : ∀ a w, op ≠ .store a w := fun a w hst => h a w (by rw [hcons, hst]; rfl)
    refine (hostStep_keepsHost op { s with out := [], todo := rest } hop).imp fun t ht => ⟨ht.cfg, ?_, ht.mem⟩
    rw [ht.todo, hcons]
    rfl

/-- A step whose operation is a store stores the word and consumes the operation, nothing else (log 25). -/
theorem step_of_store (s : State) (a : Nat) (w : Word) (h : s.todo.head? = some (.store a w)) :
    step s = .next { s with todo := s.todo.tail, out := [],
                            mem := storeWord s.cfg s.mem (a / 2 * 2 % 2 ^ s.cfg.addrBits) w } := by
  obtain ⟨rest, hcons⟩ := List.head?_eq_some_iff.1 h
  unfold step transition
  rw [hcons]
  simp only [hostStep, wrapAddr_natCast, List.tail_cons]

/-- Settles O10: of the steps only the host's store is not one of `hostStep_keepsHost`'s. -/
theorem stepKeepsParametersAndMemory : Obligations.StepKeepsParametersAndMemory := by
  intro s t ht
  by_cases hstore : ∃ a w, s.todo.head? = some (.store a w)
  · obtain ⟨a, w, haw⟩ := hstore
    obtain rfl := Host.Outcome.next.inj ((step_of_store s a w haw).symm.trans ht)
    refine ⟨rfl, rfl, fun hno => absurd haw (hno a w), fun b v hbv => ?_⟩
    obtain ⟨rfl, rfl⟩ := HostOp.store.inj (Option.some.inj (haw.symm.trans hbv))
    rfl
  · have hno : ∀ a w, s.todo.head? ≠ some (.store a w) := fun a w haw => hstore ⟨a, w, haw⟩
    obtain ⟨hcfg, htodo, hmem⟩ := step_of_no_store s hno t ht
    exact ⟨hcfg, htodo, fun _ => hmem, fun a w haw => absurd haw (hno a w)⟩

end Sys2Proof.Machine
end

