-- ==== Sys2Proof/Proofs/Vt11Instr.lean ====
section
/-! PROOFS. The instructions that the VT11 has (R2, R50, R67): every decoder, the spec's own and a replaced table's,
answers one of them on the VT11. -/

namespace Sys2Proof

/-- Whether the VT11 has an instruction: its rows of the opcode table and the data words of its modes (R2, R50). -/
def onVt11 (i : Instr) : Bool :=
  match i with
  | .sgmChar _ | .sgmSvect _ | .sgmLvect _ | .sgmPoint _ | .sgmGraphx _ | .sgmGraphy _ | .sgmRelpoint _ => true
  | .djmpAbsVt11 _ | .dnopVt11 _ | .lsra _ | .lsrbVt11 _ _ | .dstop => true
  | .illegalOp7 _ | .illegalOp8 _ | .illegalOp9 _ | .illegalOp10 _ | .illegalOp11 _ => true
  | .charData _ | .svectData _ | .lvectData _ | .pointData _ | .offsetData _ | .graphxData _ | .graphyData _ => true
  | .relpointData _ => true
  | .sgmBsvect _ | .sgmCircle _ | .sgmAbsvec _ | .ldnr _ | .lsrc _ | .djmpAbs _ | .djmpRel _ | .djsrAbs _ => false
  | .djsrRel _ | .dnop _ | .dpopNr _ | .dpopR _ | .ldscope _ | .lassoc _ | .lsrb _ | .lsrbb _ => false
  | .illegalSub5 _ | .illegalSub6 _ | .illegalSub7 _ | .bsvectData _ | .circleData _ | .absvecData _ => false

/-- What the VT11 decodes a control word to is an instruction it has (R50, R67). -/
theorem onVt11_decodeControl (w : Word) : onVt11 (decodeControl .vt11 w) = true := by
  unfold decodeControl
  split
  case h_15 =>
    unfold decodeLsra
    dsimp only
    split <;> rfl
  all_goals rfl

/-- A data word of a mode that the VT11 has is an instruction it has (R69). -/
theorem onVt11_decodeData (ctx : DecodeCtx) (w : Word) (hm : modeOnVt11 ctx.mode = true) :
    onVt11 (decodeData ctx w) = true := by
  unfold decodeData
  split
  case h_4 => split <;> rfl
  case h_8 h | h_9 h | h_10 h =>
    rw [h] at hm
    cases hm
  all_goals rfl

/-- A replaced table leaves the choice of the data word to the mode (R5, R69). -/
theorem onVt11_decodeTableData (t : EncTable) (ctx : DecodeCtx) (w : Word) (hm : modeOnVt11 ctx.mode = true) :
    onVt11 (decodeTableData t ctx w) = true := onVt11_decodeData _ w hm

theorem onVt11_decode (ctx : DecodeCtx) (w : Word) (hv : ctx.variant = .vt11) (hm : modeOnVt11 ctx.mode = true) :
    onVt11 (decode ctx w) = true := by
  unfold decode
  rw [hv]
  split
  · exact onVt11_decodeControl w
  · exact onVt11_decodeData ctx w hm

/-- The instruction of a table's row is one that the VT11 has where the table may name it there (R5, R67). -/
theorem onVt11_buildInstr (op : Op) (v : Nat → Nat) (x : Int) :
    onVt11 (buildInstr op v x) = opOnVariant .vt11 op := by
  cases op <;> rfl

end Sys2Proof
end

