-- ==== Sys2Proof/Proofs/Vt11Confined.lean ====
section
/-! PROOFS. O58: on the VT11 every operation keeps the VS60 state at its reset value. `Vt11State` is `Vt11Confined` for a
VT11 by named parts; each operation keeps it (R2, R20, R21, R23, R24). -/

namespace Sys2Proof.Machine

/-! ## The invariant by its parts -/

/-- The reasons that the VT11 can wait for: those of the edge, the stack and the name are the VS60's (R154). -/
def vt11Reason (r : Reason) : Bool :=
  match r with
  | .edgeTransition | .stackFault | .nameMatch => false
  | .lightPenHit | .internalStop | .externalStop | .charFault | .busTimeout => true

/-- The parameter set selects a mode of the VT11 and holds the VS60's fields at their reset values (R2, R23). -/
structure Vt11Params (c : Params) (p : ParamSet) : Prop where
  mode : modeOnVt11 p.mode = true
  vscale : p.vscale = c.resetParams.vscale
  csIndex : p.csIndex = c.resetParams.csIndex
  rotate : p.rotate = c.resetParams.rotate
  depthCue : p.depthCue = c.resetParams.depthCue
  edgeIntrEna : p.edgeIntrEna = c.resetParams.edgeIntrEna
  fileZ : p.fileZ = c.resetParams.fileZ
  charEsc : p.charEsc = c.resetParams.charEsc

/-- The VS60's control fields are at their reset values (R24). -/
structure Vt11Regs (r : Regs) : Prop where
  nameIntrEna : r.nameIntrEna = false
  menu : r.menu = false
  cons0 : r.cons0 = true
  cons1 : r.cons1 = false
  name : r.name = 0
  assoc : r.assoc = 0
  termChar : r.termChar = 0
  reloc : r.reloc = 0
  stackIntrEna : r.stackIntrEna = true
  stackAddr : r.stackAddr = 8

/-- The flags of the edge, the stack and the name are clear (R26). -/
structure Vt11Flags (f : Flags) : Prop where
  edgeFlag : f.edgeFlag = false
  edgeExit : f.edgeExit = false
  stackOver : f.stackOver = false
  stackUnder : f.stackUnder = false
  nameMatch : f.nameMatch = false

/-- A VT11 whose VS60 state is at its reset values. -/
structure Vt11State (s : State) : Prop where
  variant : s.cfg.variant = .vt11
  params : Vt11Params s.cfg s.P
  posZ : s.pos.z = 0
  off : s.off = ⟨0, 0, 0⟩
  sp : s.sp = 8
  regs : Vt11Regs s.regs
  flags : Vt11Flags s.flags
  pend : ∀ r, pendGet s.pend r = true → vt11Reason r = true
  clipPend : s.clipPend = none
  lpCont : ∀ c, s.lpCont = some c → c.exit = none
  ctlPend : s.ctlPend = none ∨ s.ctlPend = some .djmpAbs ∨ ∃ w, s.ctlPend = some (.held w)
  run : ∀ r, s.run = .awaitResume r → vt11Reason r = true

/-- No request that only the VS60 has is latched, said by each of the three. -/
theorem vt11Pend_iff (p : Pend) : (∀ r, pendGet p r = true → vt11Reason r = true) ↔
    p.edgeTransition = false ∧ p.stackFault = false ∧ p.nameMatch = false := by
  constructor
  · intro h
    exact ⟨Bool.eq_false_iff.2 fun he => absurd (h .edgeTransition he) (by decide),
      Bool.eq_false_iff.2 fun he => absurd (h .stackFault he) (by decide),
      Bool.eq_false_iff.2 fun he => absurd (h .nameMatch he) (by decide)⟩
  · rintro ⟨hedge, hstack, hname⟩ r hr
    cases r with
    | edgeTransition => exact absurd (hedge.symm.trans hr) (by decide)
    | stackFault => exact absurd (hstack.symm.trans hr) (by decide)
    | nameMatch => exact absurd (hname.symm.trans hr) (by decide)
    | lightPenHit | internalStop | externalStop | charFault | busTimeout => rfl

/-- No wait that only the VS60 has is entered, said by each of the three. -/
theorem vt11Run_iff (u : RunState) : (∀ r, u = .awaitResume r → vt11Reason r = true) ↔
    u ≠ .awaitResume .edgeTransition ∧ u ≠ .awaitResume .stackFault ∧ u ≠ .awaitResume .nameMatch := by
  constructor
  · intro h
    exact ⟨fun he => absurd (h _ he) (by decide), fun he => absurd (h _ he) (by decide),
      fun he => absurd (h _ he) (by decide)⟩
  · rintro ⟨hedge, hstack, hname⟩ r rfl
    cases r with
    | edgeTransition => exact absurd rfl hedge
    | stackFault => exact absurd rfl hstack
    | nameMatch => exact absurd rfl hname
    | lightPenHit | internalStop | externalStop | charFault | busTimeout => rfl

/-- On a VT11 the invariant by its parts is the invariant as stated. -/
theorem vt11State_iff (s : State) : Vt11State s ↔ s.cfg.variant = .vt11 ∧ Vt11Confined s := by
  constructor
  · rintro ⟨hv, ⟨h1, h2, h3, h4, h5, h6, h7, h8⟩, hz, hoff, hsp, ⟨r1, r2, r3, r4, r5, r6, r7, r8, r9, r10⟩,
      ⟨f1, f2, f3, f4, f5⟩, hpend, hclip, hlp, hctl, hrun⟩
    obtain ⟨p1, p2, p3⟩ := (vt11Pend_iff s.pend).1 hpend
    obtain ⟨u1, u2, u3⟩ := (vt11Run_iff s.run).1 hrun
    exact ⟨hv, fun _ => ⟨h1, hz, hoff, hsp, h2, h3, h4, h5, h6, h7, h8, r1, r2, r3, r4, r5, r6, r7, r8, r9, r10,
      f1, f2, f3, f4, f5, p1, p2, p3, hclip, hlp, hctl, u1, u2, u3⟩⟩
  · rintro ⟨hv, h⟩
    obtain ⟨h1, hz, hoff, hsp, h2, h3, h4, h5, h6, h7, h8, r1, r2, r3, r4, r5, r6, r7, r8, r9, r10,
      f1, f2, f3, f4, f5, p1, p2, p3, hclip, hlp, hctl, u1, u2, u3⟩ := h hv
    exact ⟨hv, ⟨h1, h2, h3, h4, h5, h6, h7, h8⟩, hz, hoff, hsp, ⟨r1, r2, r3, r4, r5, r6, r7, r8, r9, r10⟩,
      ⟨f1, f2, f3, f4, f5⟩, (vt11Pend_iff s.pend).2 ⟨p1, p2, p3⟩, hclip, hlp, hctl,
      (vt11Run_iff s.run).2 ⟨u1, u2, u3⟩⟩

/-! ## What the VT11 does not have -/

theorem isVs60_of_vt11 {s : State} (h : s.cfg.variant = .vt11) : isVs60 s = false := by
  unfold isVs60
  rw [h]
  rfl

theorem edgesOn_of_vt11 {s : State} (h : s.cfg.variant = .vt11) : edgesOn s = false := by
  unfold edgesOn
  rw [isVs60_of_vt11 h, Bool.false_and]

theorem zWords_of_vt11 {s : State} (h : s.cfg.variant = .vt11) : zWords s = false := by
  unfold zWords
  rw [isVs60_of_vt11 h, Bool.false_and]

theorem isOffsetItem_of_vt11 {s : State} (h : s.cfg.variant = .vt11) (m : Mode) (ws : List Word) :
    isOffsetItem s m ws = false := by
  unfold isOffsetItem
  rw [isVs60_of_vt11 h, Bool.and_false, Bool.false_and]

theorem terminates_of_vt11 {s : State} (h : s.cfg.variant = .vt11) (b : BitVec 7) : terminates b s = false := by
  unfold terminates
  rw [isVs60_of_vt11 h, Bool.false_and, Bool.false_and]

theorem charCrossing_of_vt11 {s : State} (h : s.cfg.variant = .vt11) (o o' : Pt3) : charCrossing o o' s = s := by
  unfold charCrossing
  rw [edgesOn_of_vt11 h, Bool.false_and]
  rfl

theorem vs60Write_of_vt11 {s : State} (h : s.cfg.variant = .vt11) (t : State) : vs60Write s t = s := by
  unfold vs60Write
  rw [isVs60_of_vt11 h]
  rfl

/-! ## Requests and the check -/

theorem Vt11State.raise {s : State} (h : Vt11State s) {r : Reason} (hr : vt11Reason r = true) :
    Vt11State (raise r s) where
  __ := h
  pend q hq := by
    rw [raise_pend, pendGet_pendSet] at hq
    split at hq
    · next hqr => rw [hqr]; exact hr
    · exact h.pend q hq

theorem Vt11State.withFlags {s : State} (h : Vt11State s) (f : Flags) (hf : Vt11Flags f) :
    Vt11State { s with flags := f } := { h with flags := hf }

theorem Vt11State.takeInterrupt {s : State} (h : Vt11State s) {r : Reason} (hr : vt11Reason r = true) :
    Vt11State (takeInterrupt r s) := by
  rw [takeInterrupt_eq]
  refine { h with pend := fun q hq => ?_, run := fun q hq => ?_ }
  · rw [pendGet_pendSet] at hq
    split at hq
    · cases hq
    · exact h.pend q hq
  · rw [← RunState.awaitResume.inj hq]
    exact hr

/-- The check takes a latched request, and the VT11 latches no request of the VS60's (R157). -/
theorem Vt11State.check {s : State} (h : Vt11State s) : Vt11State (check s) := by
  unfold Machine.check
  split
  · exact h
  · next r hr => exact h.takeInterrupt (h.pend r (List.find?_some hr))

theorem Vt11State.age {s : State} (h : Vt11State s) (e : Nat) : Vt11State (age e s) := by
  rw [age_eq]
  refine { h with run := fun r hr => h.run r ?_ }
  dsimp only at hr
  split at hr
  · cases hr
  · exact hr

theorem Vt11State.sampleTip {s : State} (h : Vt11State s) (tip : Bool) : Vt11State (sampleTip tip s) := by
  unfold Machine.sampleTip
  dsimp only
  split_ifs
  · exact h
  · exact (h.withFlags { s.flags with tipSw := tip, tipChanged := true } { h.flags with }).raise rfl
  · exact h.withFlags { s.flags with tipSw := tip } { h.flags with }

theorem Vt11State.sample {s : State} (h : Vt11State s) (inp : CycleIn) : Vt11State (sample inp s) := by
  refine Vt11State.sampleTip ?_ inp.tip
  exact { h with }

theorem Vt11State.fetchTimeout {s : State} (h : Vt11State s) : Vt11State (fetchTimeout s) :=
  (h.withFlags { s.flags with timeOut := true } { h.flags with }).raise (r := .busTimeout) rfl

/-! ## Drawing -/

theorem Vt11State.illuminate {s : State} (h : Vt11State s) (x y : Int) (i : BitVec 3) (c : BitVec 1) :
    Vt11State (illuminate x y i c s).1 := by
  rw [illuminate_eq]
  exact { h with }

theorem Vt11State.lightPenHit {s : State} (h : Vt11State s) (q : Pt3) : Vt11State (lightPenHit q s) :=
  have hflag := (h.withFlags { s.flags with lpFlag := true } { h.flags with }).raise (r := .lightPenHit) rfl
  { hflag with }

theorem Vt11State.moveTo {s : State} (h : Vt11State s) {p : Pt3} (hz : p.z = 0) : Vt11State (moveTo p s) :=
  { h with posZ := hz }

/-- A run without an exit edge leaves a remainder without one and raises no edge event (R111). -/
theorem Vt11State.drawRun {s : State} (h : Vt11State s) (masked : Bool) (run : List Pixel) :
    Vt11State (drawRun none masked run s) := by
  induction run generalizing s with
  | nil => exact h
  | cons p rest ih =>
    have hlit := h.illuminate p.x p.y p.i p.c
    unfold Machine.drawRun
    dsimp only
    split
    · refine { hlit.lightPenHit ⟨p.x, p.y, p.z⟩ with lpCont := fun c hc => ?_ }
      rw [← Option.some.inj hc]
    · exact ih hlit

/-- With no edge events every visible part of a segment is drawn as a run without an exit edge (R113). -/
theorem Vt11State.segment {s : State} (h : Vt11State s) (p0 p1 : Pt3) (i : Bool) :
    Vt11State (segment p0 p1 i s) := by
  unfold Machine.segment
  rw [edgesOn_of_vt11 h.variant]
  split
  · exact h
  · dsimp only
    split <;> exact h.drawRun false _

theorem Vt11State.vecItem {s : State} (h : Vt11State s) {p : Pt3} (hz : p.z = 0) (i : Bool) :
    Vt11State (vecItem p i s) := (h.moveTo hz).segment _ _ i

theorem Vt11State.pointItem {s : State} (h : Vt11State s) {p : Pt3} (hz : p.z = 0) (i : Bool) :
    Vt11State (pointItem p i s) := by
  unfold Machine.pointItem
  dsimp only
  split
  · exact (h.moveTo hz).drawRun false _
  · exact h.moveTo hz

theorem Vt11State.drawRemainder {s : State} (h : Vt11State s) : Vt11State (drawRemainder s) := by
  unfold Machine.drawRemainder
  split
  · exact h
  · next c hc =>
    rw [h.lpCont c hc]
    refine Vt11State.drawRun ?_ true c.run
    exact { h with lpCont := fun _ hc => nomatch hc }

/-! ## Characters -/

theorem advanced_z (s : State) : (advanced s).z = s.pos.z := by
  unfold advanced
  split <;> exact Int.add_zero _

theorem backspaced_z (s : State) : (backspaced s).z = s.pos.z := by
  unfold backspaced
  split <;> exact Int.add_zero _

theorem lineFed_z (s : State) : (lineFed s).z = s.pos.z := by
  unfold lineFed
  split <;> exact Int.add_zero _

theorem returned_z (s : State) : (returned s).z = s.pos.z := by
  unfold returned
  split <;> rfl

theorem Vt11State.lightGlyph {s : State} (h : Vt11State s) (run : List Pixel) (first : Option Pt3) :
    Vt11State (lightGlyph run first s).1 := by
  induction run generalizing first s with
  | nil => exact h
  | cons p rest ih => exact ih (h.illuminate p.x p.y p.i p.c) _

theorem Vt11State.glyphDraw {s : State} (h : Vt11State s) (pts : List Pt3) : Vt11State (glyphDraw pts s) := by
  unfold Machine.glyphDraw
  dsimp only
  split
  · exact h.lightGlyph _ none
  · exact (h.lightGlyph _ none).lightPenHit _

theorem Vt11State.printCode {s : State} (h : Vt11State s) (draw : Bool) (set : CharSet) (b : BitVec 7) :
    Vt11State (printCode draw set b s) := by
  have hmoved : Vt11State (Machine.moveTo (advanced s) s) := h.moveTo ((advanced_z s).trans h.posZ)
  unfold Machine.printCode glyph faultedGlyph
  dsimp only
  rw [charCrossing_of_vt11 hmoved.variant]
  split_ifs
  · exact hmoved.glyphDraw _
  · exact hmoved
  · exact hmoved
  · exact hmoved

theorem Vt11State.charCode {s : State} (h : Vt11State s) (draw : Bool) (b : BitVec 7) :
    Vt11State (charCode draw b s) := by
  unfold Machine.charCode
  split_ifs
  · exact h.moveTo ((backspaced_z s).trans h.posZ)
  · exact h.moveTo ((lineFed_z s).trans h.posZ)
  · exact h.moveTo ((returned_z s).trans h.posZ)
  · exact { h with regs := { h.regs with } }
  · exact { h with regs := { h.regs with } }
  · exact h.printCode draw .alt b
  · exact h
  · exact h.printCode draw .main b

theorem Vt11State.charFaultItem {s : State} (h : Vt11State s) (b : BitVec 7) : Vt11State (charFaultItem b s) :=
  have hraised := (h.withFlags { s.flags with charFault := true } { h.flags with }).raise (r := .charFault) rfl
  (hraised.moveTo h.posZ).charCode false b

/-- No character of the VT11 terminates, so none pops a frame (R138). -/
theorem Vt11State.charItem {s : State} (h : Vt11State s) (b : BitVec 7) : Vt11State (charItem b s).1 := by
  unfold Machine.charItem
  rw [if_neg (Bool.eq_false_iff.1 (terminates_of_vt11 h.variant b))]
  split
  · exact h.charFaultItem b
  · exact h.charCode true b

/-! ## The data words -/

theorem shortMove_z (m : Mode) (ws : List Word) (s : State) : (shortMove m ws s).z = s.pos.z := Int.add_zero _

theorem absMove_z_of_vt11 {s : State} (h : s.cfg.variant = .vt11) (m : Mode) (ws : List Word) :
    (absMove m ws s).z = s.pos.z := by
  unfold absMove zOperandOr
  rw [zWords_of_vt11 h]
  rfl

theorem Vt11State.pairItem {s : State} (h : Vt11State s) (k : PairKind) (b : BitVec 7) :
    Vt11State (pairItem k b s).1 := by
  cases k with
  | char => exact h.charItem b
  | bsvect => exact h.vecItem ((shortMove_z ..).trans h.posZ) _

theorem Vt11State.execPair {s : State} (h : Vt11State s) (k : PairKind) (b0 b1 : BitVec 7) :
    Vt11State (execPair k b0 b1 s) := by
  have hfirst := h.pairItem k b0
  unfold Machine.execPair
  dsimp only
  split_ifs
  · exact hfirst
  · exact hfirst.pairItem k b1
  · exact { hfirst with }

theorem Vt11State.halfStep {s : State} (h : Vt11State s) (k : Half) : Vt11State (halfStep k s) :=
  Vt11State.pairItem (s := { s with pendHalf := none }) { h with } k.kind k.item

theorem Vt11State.svectItem {s : State} (h : Vt11State s) (ws : List Word) : Vt11State (svectItem ws s) :=
  h.vecItem ((shortMove_z ..).trans h.posZ) _

theorem Vt11State.lvectItem {s : State} (h : Vt11State s) (ws : List Word) : Vt11State (lvectItem ws s) := by
  unfold Machine.lvectItem
  dsimp only
  rw [zWords_of_vt11 h.variant]
  exact h.vecItem ((Int.add_zero _).trans h.posZ) _

theorem Vt11State.pointModeItem {s : State} (h : Vt11State s) (ws : List Word) : Vt11State (pointModeItem ws s) := by
  unfold Machine.pointModeItem
  rw [isOffsetItem_of_vt11 h.variant]
  exact h.pointItem ((absMove_z_of_vt11 h.variant .point ws).trans h.posZ) _

theorem Vt11State.graphxItem {s : State} (h : Vt11State s) (ws : List Word) : Vt11State (graphxItem ws s) := by
  refine h.pointItem ?_ _
  exact h.posZ

theorem Vt11State.graphyItem {s : State} (h : Vt11State s) (ws : List Word) : Vt11State (graphyItem ws s) := by
  refine h.pointItem ?_ _
  exact h.posZ

theorem Vt11State.relpointItem {s : State} (h : Vt11State s) (ws : List Word) : Vt11State (relpointItem ws s) :=
  h.pointItem ((shortMove_z ..).trans h.posZ) _

theorem Vt11State.assemble {s : State} (h : Vt11State s) (m : Mode) {item : List Word → State → State}
    (hitem : ∀ {u}, Vt11State u → ∀ ws, Vt11State (item ws u)) (w : Word) : Vt11State (assemble m item w s) := by
  unfold Machine.assemble
  dsimp only
  split
  · refine hitem ?_ _
    exact { h with }
  · exact { h with }

/-! ## The control instructions and the fetched word -/

theorem Vt11State.setGraphicMode {s : State} (h : Vt11State s) {m : Mode} (hm : modeOnVt11 m = true)
    (f : SgmFields) : Vt11State (setGraphicMode m f s) :=
  { h with params := { h.params with mode := hm } }

/-- LSRA cannot set the menu flag on the VT11 (R89). -/
theorem Vt11State.lsraLoads {s : State} (h : Vt11State s) (f : LsraFields) : Vt11State (lsraLoads f s) := by
  unfold Machine.lsraLoads
  rw [isVs60_of_vt11 h.variant]
  exact { h with params := { h.params with }, regs := { h.regs with } }

theorem Vt11State.loadStatusA {s : State} (h : Vt11State s) (f : LsraFields) : Vt11State (loadStatusA f s) := by
  have hloads := h.lsraLoads f
  unfold Machine.loadStatusA
  dsimp only
  split_ifs
  · exact (hloads.withFlags { (Machine.lsraLoads f s).flags with stopFlag := true } { hloads.flags with }).raise rfl
  · exact hloads
  · refine { hloads with run := fun r hr => ?_ }
    cases hr

theorem Vt11State.hang {s : State} (h : Vt11State s) : Vt11State (hang s) := by
  refine { h with run := fun r hr => ?_ }
  cases hr

/-- The meanings of the instructions that the VT11 has keep the invariant (R2, R50). -/
theorem Vt11State.exec {s : State} (h : Vt11State s) {i : Instr} (hi : onVt11 i = true) :
    Ensures Vt11State (exec i s) := by
  cases i with
  | sgmChar f | sgmSvect f | sgmLvect f | sgmPoint f | sgmGraphx f | sgmGraphy f | sgmRelpoint f =>
    exact .next (h.setGraphicMode rfl f)
  | djmpAbsVt11 ign => exact .next { h with ctlPend := .inr (.inl rfl) }
  | dnopVt11 ign => exact .next h
  | illegalOp7 low | illegalOp8 low | illegalOp9 low | illegalOp10 low | illegalOp11 low => exact .next h.hang
  | lsra f => exact .next (h.loadStatusA f)
  | dstop => exact .next (h.loadStatusA dstopFields)
  | lsrbVt11 ign f => exact .next { h with regs := { h.regs with } }
  | charData f => exact .next (h.execPair .char _ _)
  | svectData f => exact .next (h.assemble .svect Vt11State.svectItem _)
  | lvectData f => exact .next (h.assemble .lvect Vt11State.lvectItem _)
  | pointData f | offsetData f => exact .next (h.assemble .point Vt11State.pointModeItem _)
  | graphxData f => exact .next (h.assemble .graphx Vt11State.graphxItem _)
  | graphyData f => exact .next (h.assemble .graphy Vt11State.graphyItem _)
  | relpointData f => exact .next (h.assemble .relpoint Vt11State.relpointItem _)
  | _ => cases hi

/-- A row that the VT11 has is no call and no load of the associative name (R2, R50). -/
theorem Vt11State.execRow {s : State} (h : Vt11State s) {r : EncRow} (hr : opOnVariant .vt11 r.op = true)
    (ws : List Word) : Ensures Vt11State (execRow r ws s) := by
  obtain ⟨x, hx⟩ | ⟨hop, -⟩ | ⟨hop, -⟩ | hx := execRow_cases r ws s
  · rw [hx]
    exact .next { h with }
  · rw [hop] at hr
    cases hr
  · rw [hop] at hr
    cases hr
  · rw [hx]
    exact h.exec ((onVt11_buildInstr ..).trans hr)

/-- An operand that the VT11 awaits is a jump's, or that of a row it has (R93). -/
theorem Vt11State.execOperand {s : State} (h : Vt11State s) {k : CtlPend}
    (hk : k = .djmpAbs ∨ ∃ first, k = .held first) (w : Word) : Ensures Vt11State (execOperand k w s) := by
  obtain rfl | ⟨first, rfl⟩ := hk
  · exact .next { h with }
  · unfold Machine.execOperand
    rw [h.variant]
    dsimp only
    split
    · next r hr => exact h.execRow (tableRow_opOnVariant hr) _
    · exact .next h.hang

theorem Vt11State.execWord {s : State} (h : Vt11State s) (w : Word) : Ensures Vt11State (execWord w s) := by
  unfold Machine.execWord
  split
  · exact h.exec (onVt11_decode _ w h.variant h.params.mode)
  · split_ifs
    · rw [h.variant]
      split
      · exact .next h.hang
      · next r hr =>
        split_ifs
        · exact .next { h with ctlPend := .inr (.inr ⟨w, rfl⟩) }
        · exact h.execRow (EncTable.row_opOnVariant hr) _
    · exact h.exec (onVt11_decodeTableData _ _ w h.params.mode)

theorem Vt11State.dispatchWord {s : State} (h : Vt11State s) (w : Word) : Ensures Vt11State (dispatchWord w s) := by
  unfold Machine.dispatchWord
  split
  · next k hk =>
    have hawaited : k = .djmpAbs ∨ ∃ first, k = .held first := by
      simpa [hk] using h.ctlPend
    exact Vt11State.execOperand (s := { s with ctlPend := none }) { h with ctlPend := .inl rfl } hawaited w
  · exact h.execWord w

/-! ## The cycle and the host's operations -/

/-- Every part of a cycle keeps the invariant; the VT11 has no clipped remainder to draw (R75, R80). -/
theorem cycleKeeps_vt11State : CycleKeeps Vt11State where
  sample inp _ h := h.sample inp
  countCycle _ h := { h with }
  clipStep _ _ h hc := absurd (h.clipPend.symm.trans hc) (by simp)
  halfStep k _ h _ := h.halfStep k
  fetchTimeout _ h := h.fetchTimeout
  dispatchWord w s h := Vt11State.dispatchWord (s := advanceDpc s) { h with } w
  check _ h := h.check
  age e _ h := h.age e

/-- A RESUME only clears flags, but for the remainder it draws (R83). -/
theorem Vt11Flags.clearReason {f : Flags} (h : Vt11Flags f) (r : Reason) : Vt11Flags (clearReason r f) := by
  cases r with
  | lightPenHit | charFault | busTimeout => exact { h with }
  | internalStop | externalStop => exact h
  | edgeTransition => exact { h with edgeFlag := rfl }
  | stackFault => exact { h with stackOver := rfl, stackUnder := rfl }
  | nameMatch => exact { h with nameMatch := rfl }

theorem Vt11State.resume {s : State} (h : Vt11State s) : Vt11State (resume s) := by
  have hstops : Vt11Flags (clearStops s.flags) := { h.flags with }
  by_cases hwait : ∃ r, s.run = .awaitResume r
  · obtain ⟨r, hr⟩ := hwait
    rw [resume_of_waiting s r hr]
    have hcleared : Vt11State { s with flags := Machine.clearReason r (clearStops s.flags) } :=
      { h with flags := hstops.clearReason r }
    refine { hcleared.drawRemainder with run := fun q hq => ?_ }
    cases hq
  · rw [resume_of_not_waiting s fun r hr => hwait ⟨r, hr⟩]
    exact { h with flags := hstops }

theorem Vt11State.start {s : State} (h : Vt11State s) (v : Word) : Vt11State (start v s) :=
  { h with
    flags := ⟨rfl, rfl, rfl, rfl, rfl⟩
    pend := (vt11Pend_iff noPend).2 ⟨rfl, rfl, rfl⟩
    clipPend := rfl
    lpCont := fun _ hc => nomatch hc
    ctlPend := .inl rfl
    run := fun _ hr => nomatch hr }

theorem Vt11State.setDpc {s : State} (h : Vt11State s) (v : Word) : Vt11State (setDpc v s) := by
  unfold Machine.setDpc
  split
  · exact h.resume
  · exact h.start v

theorem Vt11State.extStop {s : State} (h : Vt11State s) : Vt11State (extStop s) := by
  unfold Machine.extStop
  split
  · exact h
  · exact h
  · exact (h.withFlags { s.flags with extStopFlag := true } { h.flags with }).raise rfl

/-- A Reset gives the VT11 a mode it has, the parameters being legal (R172). -/
theorem Vt11State.resetCore {s : State} (h : Vt11State s) (hlegal : s.cfg.legal = true) :
    Vt11State (resetCore s) :=
  have hmode : modeOnVt11 s.cfg.resetParams.mode = true := by
    simpa [Params.legal, h.variant] using (Bool.and_eq_true_iff.1 hlegal).2
  { variant := h.variant
    params := ⟨hmode, rfl, rfl, rfl, rfl, rfl, rfl, rfl⟩
    posZ := rfl
    off := rfl
    sp := rfl
    regs := ⟨rfl, rfl, rfl, rfl, rfl, rfl, rfl, rfl, rfl, rfl⟩
    flags := ⟨rfl, rfl, rfl, rfl, rfl⟩
    pend := (vt11Pend_iff noPend).2 ⟨rfl, rfl, rfl⟩
    clipPend := rfl
    lpCont := fun _ hc => nomatch hc
    ctlPend := .inl rfl
    run := fun _ hr => nomatch hr }

theorem Vt11State.initEngine {s : State} (h : Vt11State s) (name scale : Nat) :
    Vt11State (initEngine name scale s) := by
  unfold Machine.initEngine
  split
  · exact { h with }
  · split_ifs <;> exact { h with }

/-- A write of a device register sets nothing that only the VS60 has (R86). -/
theorem Vt11State.hostWrite {s : State} (h : Vt11State s) (i : Fin 16) (v : Word) : Vt11State (hostWrite i v s) := by
  unfold Machine.hostWrite writeStackAddress writeXPosition writeYPosition writeColor
  simp only [vs60Write_of_vt11 h.variant]
  split
  case h_1 => exact h.setDpc v
  case h_3 =>
    split
    · exact h
    · exact { h with regs := { h.regs with } }
  case h_4 =>
    split
    · exact h
    · exact { h with }
  case h_10 =>
    split
    · exact { h with regs := { h.regs with } }
    · exact h
  all_goals exact h

theorem Vt11State.hostStep {s : State} (h : Vt11State s) (hlegal : s.cfg.legal = true) (op : HostOp) :
    Ensures Vt11State (hostStep op s) := by
  cases op with
  | cycle inp => exact cycleKeeps_vt11State.cycle inp h
  | setDpc v => exact .next (h.setDpc v)
  | hostWrite i v => exact .next (h.hostWrite i v)
  | hostRead i | store a w => exact .next { h with }
  | extStop => exact .next h.extStop
  | reset => exact .next (h.resetCore hlegal)
  | init name scale => exact .next (h.initEngine name scale)

theorem Vt11State.step {s : State} (h : Vt11State s) (hlegal : s.cfg.legal = true) : Ensures Vt11State (step s) :=
  step_ensures (fun _ => cycleKeeps_vt11State.cycle _ { h with })
    fun op rest _ => Vt11State.hostStep (s := { s with out := [], todo := rest }) { h with } hlegal op

/-- Settles O58: the variant stays (O10), and on the VT11 every operation keeps `Vt11State`. -/
theorem stepKeepsVt11Confined : Obligations.StepKeepsVt11Confined := by
  intro s t hlegal hs ht hv
  have hvs : s.cfg.variant = .vt11 := (stepKeepsParametersAndMemory s t ht).1 ▸ hv
  have hstate : Vt11State s := (vt11State_iff s).2 ⟨hvs, hs⟩
  obtain ⟨-, hconfined⟩ := (vt11State_iff t).1 (hstate.step hlegal t ht)
  exact hconfined hv

end Sys2Proof.Machine
end

