-- ==== Sys2Proof/Proofs/MemoryWords.lean ====
section
/-! PROOFS. O54 and O44: the host's memory by words. A word's two bytes lie at its even address and at the odd one after
it, so that words at different addresses share no byte (R38, R39, R41; the byte order is log 2). -/

namespace Sys2Proof

/-- The two bytes that a word is stored as make the word again (R39; log 2). -/
@[simp] theorem wordOfBytes_lowByte_highByte (w : Word) : wordOfBytes (lowByte w) (highByte w) = w :=
  BitVec.extractLsb'_append_extractLsb'_eq_extractLsb' rfl |>.trans BitVec.extractLsb'_eq_self

namespace Machine

/-- The address after a word's is still in the address space, whose size is even (R35, R38). -/
theorem WordAddr.succ_lt {c : Params} {a : Nat} (hc : 1 ≤ c.addrBits) (ha : WordAddr c a) : a + 1 < addrSpace c := by
  obtain ⟨heven, hlt⟩ := ha
  have hspace : 2 ∣ addrSpace c := dvd_pow_self 2 (by omega)
  omega

/-- The second byte of a word lies at the next address, without a wrap (R38, R39). -/
theorem nextByte_of_wordAddr {c : Params} {a : Nat} (hc : 1 ≤ c.addrBits) (ha : WordAddr c a) :
    nextByte c a = a + 1 := wrapAddr_of_lt c (a + 1) (ha.succ_lt hc)

/-- A word fetched after a word is stored (R36, R39, R41). -/
theorem fetchWord_storeWord {c : Params} {m : Memory} {a b : Nat} (w : Word) (hc : 1 ≤ c.addrBits)
    (hm : Memory.wf c m = true) (ha : WordAddr c a) (hb : WordAddr c b) :
    fetchWord c (storeWord c m a w) b = if b = a then w else fetchWord c m b := by
  unfold fetchWord
  rw [readByte_storeWord c m a b w ha.2 hm, readByte_storeWord c m a _ w ha.2 hm, nextByte_of_wordAddr hc ha,
    nextByte_of_wordAddr hc hb]
  obtain ⟨haeven, -⟩ := ha
  obtain ⟨hbeven, -⟩ := hb
  by_cases hba : b = a
  · simp [hba]
  · have hlow : b ≠ a + 1 := by omega
    have hhigh : b + 1 ≠ a := by omega
    simp [hba, hlow, hhigh]

/-- Settles O44: the store law of the canonical form, and the fetch after a store. -/
theorem fetchReturnsTheStoredWord : Obligations.FetchReturnsTheStoredWord := by
  intro c m a b w hc hm ha hb
  exact ⟨storeWord_wf c m a w ha.2 hm, fetchWord_storeWord w hc hm ha hb⟩

/-- Settles O54: by O10 memory changes by the host's store alone, and a store keeps the canonical form. -/
theorem stepKeepsMemoryCanonical : Obligations.StepKeepsMemoryCanonical := by
  intro s t hs ht
  obtain ⟨hcfg, -, hkept, hstored⟩ := stepKeepsParametersAndMemory s t ht
  unfold MemoryOk at hs ⊢
  rw [hcfg]
  by_cases hstore : ∃ a w, s.todo.head? = some (.store a w)
  · obtain ⟨a, w, haw⟩ := hstore
    have hlt : a / 2 * 2 % 2 ^ s.cfg.addrBits < addrSpace s.cfg := Nat.mod_lt _ (addrSpace_pos s.cfg)
    rw [hstored a w haw]
    exact storeWord_wf s.cfg s.mem _ w hlt hs
  · rw [hkept fun a w haw => hstore ⟨a, w, haw⟩]
    exact hs

end Machine

end Sys2Proof
end

