-- ==== Sys2Proof/Proofs/OperandWords.lean ====
section
/-! PROOFS. O16: the operand word of a two-word instruction, under the spec's own encoding and under a replaced table
(R59, R77, R93, R95, R97, R103; logs 1, 18). -/

namespace Sys2Proof

/-- An ADDR operand is the word with bit 0 read as 0 (R59). -/
theorem addrOperand_eq (w : Word) : addrOperand w = w.toNat / 2 * 2 := by
  have hmask : w &&& (0xFFFE : Word) = (w >>> 1) <<< 1 := by
    ext i hi
    interval_cases i <;> simp
  unfold addrOperand
  rw [hmask, BitVec.toNat_shiftLeft, BitVec.toNat_ushiftRight, Nat.shiftRight_eq_div_pow, Nat.shiftLeft_eq]
  omega

/-- An ASSOC operand is bits 10 to 0 of the word (R59). -/
theorem assocOperand_eq (w : Word) : assocOperand w = w.toNat % 2048 := BitVec.extractLsb'_toNat 0 11 w

namespace Machine

/-! ## Targets and calls -/

/-- The target of an absolute jump or call as a natural number (R44, R93, R95). -/
theorem absTarget_eq (s : State) (a : Nat) : absTarget s a = (a / 2 * 2 + s.regs.reloc) % 2 ^ s.cfg.addrBits :=
  wrapAddr_natCast s.cfg (a / 2 * 2 + s.regs.reloc)

/-- The target that an operand word gives: bit 0 is cleared once (R59). -/
theorem absTarget_addrOperand (s : State) (w : Word) :
    absTarget s (addrOperand w) = (w.toNat / 2 * 2 + s.regs.reloc) % 2 ^ s.cfg.addrBits := by
  rw [absTarget_eq, addrOperand_eq, Nat.mul_div_cancel _ Nat.two_pos]

/-- A stack fault latches its request where the interrupt is enabled (R97, R98). -/
theorem raiseStackFault_eq (s : State) :
    raiseStackFault s =
      { s with pend := { s.pend with stackFault := s.pend.stackFault || s.regs.stackIntrEna } } := by
  unfold raiseStackFault
  cases h : s.regs.stackIntrEna
  · simp
  · simp [raise, pendSet]

/-- A call with room on the stack pushes the return address and jumps (R95, R97). -/
theorem callSub_of_room (target : Nat) (s : State) (h : 0 < s.sp.val) :
    callSub target s =
      { s with sp := ⟨s.sp.val - 1, by omega⟩, dpc := target,
               stk := s.stk.set (s.sp.val - 1) { dpc := s.dpc, name := s.regs.name, P := s.P } (by omega) } := by
  unfold callSub
  rw [push_of_room s.dpc s h.ne']
  rfl

/-- A call on a full stack does not jump: the flag and, where enabled, the request change (R97). -/
theorem callSub_of_full (target : Nat) (s : State) (h : s.sp = 0) :
    callSub target s =
      { s with flags := { s.flags with stackOver := true },
               pend := { s.pend with stackFault := s.pend.stackFault || s.regs.stackIntrEna } } := by
  unfold callSub
  rw [push_of_full s.dpc s (congrArg Fin.val h), raiseStackFault_eq]
  rfl

/-! ## The awaited word -/

/-- An awaited word is not class-tested: it is the operand, and is awaited no more (R77). -/
theorem dispatchWord_of_awaited (w : Word) (s : State) (k : CtlPend) (h : s.ctlPend = some k) :
    dispatchWord w s = execOperand k w { s with ctlPend := none } := by
  unfold dispatchWord
  rw [h]

/-- DJMP-ABS's operand word (R93). -/
theorem execOperand_djmpAbs (w : Word) (s : State) :
    execOperand .djmpAbs w s =
      .next { s with dpc := (w.toNat / 2 * 2 + s.regs.reloc) % 2 ^ s.cfg.addrBits } := by
  rw [← absTarget_addrOperand]
  rfl

/-- DJSR-ABS's operand word (R95). -/
theorem execOperand_djsrAbs (w : Word) (s : State) :
    execOperand .djsrAbs w s = .next (callSub ((w.toNat / 2 * 2 + s.regs.reloc) % 2 ^ s.cfg.addrBits) s) := by
  rw [← absTarget_addrOperand]
  rfl

/-- LASSOC's operand word (R103; log 1). -/
theorem execOperand_lassoc (w : Word) (s : State) :
    execOperand .lassoc w s =
      .next { s with regs := { s.regs with assoc := w.toNat % 2048 % 2 ^ s.cfg.nameBits } } := by
  rw [← assocOperand_eq]
  rfl

/-- The second word of a replaced table's row runs the row on both words (R5; log 18). -/
theorem execOperand_held (first w : Word) (s : State) (r : EncRow)
    (h : tableRow s.cfg.encoding s.cfg.variant first = some r) :
    execOperand (.held first) w s = execRow r [first, w] s := by
  unfold execOperand
  dsimp only
  rw [h]

/-! ## A table's row -/

section
variable {r : EncRow} (ws : List Word) (s : State)

/-- A jump's row jumps to the number it reads (R93; log 18). -/
theorem execRow_of_djmpAbs (h : r.op = .djmpAbs ∨ r.op = .djmpAbsVt11) :
    execRow r ws s = .next (jumpAbs (operandVal ws r.operand).toNat s) := if_pos h

/-- A call's row calls the number it reads (R95; log 18). -/
theorem execRow_of_djsrAbs (h : r.op = .djsrAbs) :
    execRow r ws s = .next (callAbs (operandVal ws r.operand).toNat s) := by
  simp [execRow, h]

/-- LASSOC's row loads the number it reads (R103; log 18). -/
theorem execRow_of_lassoc (h : r.op = .lassoc) :
    execRow r ws s = .next (loadAssoc (operandVal ws r.operand).toNat s) := by
  simp [execRow, h]

/-- Any other row's instruction does what `exec` says (R5; log 18). -/
theorem execRow_of_no_operand_op (h : r.op ∉ ([.djmpAbs, .djmpAbsVt11, .lassoc, .djsrAbs] : List Op)) :
    execRow r ws s = exec (rowInstr r ws) s := by
  simp only [List.mem_cons, List.not_mem_nil, or_false, not_or] at h
  obtain ⟨hjmp, hjmpVt11, hlassoc, hjsr⟩ := h
  simp [execRow, hjmp, hjmpVt11, hlassoc, hjsr]

end

/-- Settles O16: what each operand word does, and what a table's row does on the number it reads. -/
theorem awaitedWordIsTheOperand : Obligations.AwaitedWordIsTheOperand := by
  constructor
  · rintro w s _ _ rfl rfl
    refine ⟨fun hk => ?_, fun hk => ?_, fun hk hroom => ?_, fun hk hfull => ?_, fun e first r he hr hk => ?_⟩
    all_goals rw [dispatchWord_of_awaited w s _ hk]
    · exact execOperand_djmpAbs w _
    · exact execOperand_lassoc w _
    · rw [execOperand_djsrAbs, callSub_of_room _ { s with ctlPend := none } hroom]
    · rw [execOperand_djsrAbs, callSub_of_full _ { s with ctlPend := none } hfull]
    · exact execOperand_held first w _ r (by rw [he, tableRow_table, hr])
  · rintro r ws s _ _ rfl rfl
    refine ⟨fun hop => ?_, fun hop => ?_, fun hop => ?_, execRow_of_no_operand_op ws s⟩
    · rw [execRow_of_djmpAbs ws s hop, jumpAbs, absTarget_eq]
    · exact execRow_of_lassoc ws s hop
    · rw [execRow_of_djsrAbs ws s hop, callAbs, absTarget_eq]

end Machine

end Sys2Proof
end

