-- ==== Sys2Proof/Proofs/WordFields.lean ====
section
/-! PROOFS. The fields of a display-file word: what a reader finds in a word that was written field by field, and
that writing back the fields read from a word gives the word (R10, R52 to R64). -/

namespace Sys2Proof

/-! ## What a known field says of the word -/

/-- A field known as `v` gives the bits it covers (R10). -/
theorem bit_of_field_eq {w : Word} {lo n : Nat} {v : BitVec n} (h : field w lo n = v) (k : Nat) (hlo : lo ≤ k)
    (hk : k < lo + n) : bit w k = v.getLsbD (k - lo) := by
  rw [← h, BitVec.getLsbD_extractLsb', Nat.add_sub_cancel' hlo, decide_eq_true (by omega), Bool.true_and]

/-- A field and the bit below it make the field one bit longer. -/
theorem field_extend {w : Word} {lo n : Nat} {v : BitVec n} {b : Bool} (h : field w (lo + 1) n = v)
    (hb : bit w lo = b) : field w lo (n + 1) = v.concat b := by
  subst h hb
  ext j hj
  rw [← BitVec.getLsbD_eq_getElem, ← BitVec.getLsbD_eq_getElem, BitVec.getLsbD_extractLsb', BitVec.getLsbD_concat]
  cases j with
  | zero => simp
  | succ j => simp [hj, Nat.add_assoc, Nat.add_comm 1 j, show j < n by omega]

/-- A field up to bit 15 is the word without the bits below it. -/
theorem field_toNat_of_top {w : Word} {lo n : Nat} (h : lo + n = 16) : (field w lo n).toNat = w.toNat / 2 ^ lo := by
  rw [BitVec.extractLsb'_toNat, Nat.shiftRight_eq_div_pow, Nat.mod_eq_of_lt]
  rw [Nat.div_lt_iff_lt_mul (Nat.two_pow_pos lo), ← pow_add, Nat.add_comm n, h]
  exact w.isLt

/-- The word's quotient by the weight of a field that reaches up to bit 15. -/
theorem toNat_div_of_top {w : Word} {lo n : Nat} {v : BitVec n} (h : field w lo n = v) (h16 : lo + n = 16) :
    w.toNat / 2 ^ lo = v.toNat := by rw [← h, field_toNat_of_top h16]

/-- The opcode with the class bit, from its five bits (R50). -/
theorem field_op {w : Word} {b15 b14 b13 b12 b11 : Bool} (h15 : bit w 15 = b15) (h14 : bit w 14 = b14)
    (h13 : bit w 13 = b13) (h12 : bit w 12 = b12) (h11 : bit w 11 = b11) :
    field w 11 5 = (((((0#0).concat b15).concat b14).concat b13).concat b12).concat b11 := by
  have hnone : field w 16 0 = 0#0 := BitVec.eq_nil _
  exact field_extend (field_extend (field_extend (field_extend (field_extend hnone h15) h14) h13) h12) h11

/-! ## Reading a field of a word written field by field -/

/-- A placed field reads back. -/
theorem field_put_self {n : Nat} (lo : Nat) (v : BitVec n) (h : lo + n ≤ 16) : field (put lo v) lo n = v := by
  ext j hj
  rw [← BitVec.getLsbD_eq_getElem, ← BitVec.getLsbD_eq_getElem, BitVec.getLsbD_extractLsb', put_bit]
  simp [hj, show lo + j < 16 by omega]

/-- A field written below another does not change it. -/
theorem field_or_put_below {m : Nat} (u : Word) (lo n lo' : Nat) (v : BitVec m) (h : lo' + m ≤ lo) :
    field (u ||| put lo' v) lo n = field u lo n := by
  ext j hj
  rw [← BitVec.getLsbD_eq_getElem, ← BitVec.getLsbD_eq_getElem, BitVec.getLsbD_extractLsb', BitVec.getLsbD_extractLsb',
    BitVec.getLsbD_or, put_bit, BitVec.getLsbD_of_ge v _ (by omega)]
  simp

/-- A bit written below a field does not change it. -/
theorem field_or_putBit_below (u : Word) (lo n k : Nat) (b : Bool) (h : k < lo) :
    field (u ||| putBit k b) lo n = field u lo n := field_or_put_below u lo n k _ h

/-- The opcode of a word of an opcode and one field. -/
theorem field_put_or_put {n lo : Nat} (op : BitVec n) (x : BitVec lo) (h : lo + n = 16) :
    field (put lo op ||| put 0 x) lo n = op := by
  rw [field_or_put_below _ _ _ _ _ (by omega), field_put_self _ _ h.le]

/-- A bit of the opcode of a word of an opcode and one field. -/
theorem bit_put_or_put {n lo : Nat} (op : BitVec n) (x : BitVec lo) (k : Nat) (h : lo + n = 16) (hlo : lo ≤ k)
    (hk : k < 16) : bit (put lo op ||| put 0 x) k = op.getLsbD (k - lo) :=
  bit_of_field_eq (field_put_or_put op x h) k hlo (h ▸ hk)

/-- The field of a word of an opcode and one field. -/
theorem field_zero_put_or_put {n lo : Nat} (op : BitVec n) (x : BitVec lo) (h : lo ≤ 16) :
    field (put lo op ||| put 0 x) 0 lo = x := by
  ext j hj
  rw [← BitVec.getLsbD_eq_getElem, ← BitVec.getLsbD_eq_getElem, BitVec.getLsbD_extractLsb', BitVec.getLsbD_or, put_bit,
    put_bit]
  simp [hj, show j < 16 by omega]

/-! ## Writing the fields of a word back -/

/-- A word without its bits below `n`: what has been written back when the fields from bit 15 down to bit `n` are. -/
def upperBits (w : Word) (n : Nat) : Word := (w >>> n) <<< n

theorem upperBits_bit (w : Word) (n k : Nat) : (upperBits w n).getLsbD k = (decide (n ≤ k) && w.getLsbD k) := by
  rw [upperBits, BitVec.getLsbD_shiftLeft, BitVec.getLsbD_ushiftRight]
  by_cases h : n ≤ k
  · rw [Nat.add_sub_cancel' h]
    simpa [h, Nat.not_lt.2 h] using BitVec.lt_of_getLsbD
  · simp [h, Nat.lt_of_not_le h]

@[simp] theorem upperBits_zero (w : Word) : upperBits w 0 = w := by simp [upperBits]

/-- Writing back the next field. -/
theorem upperBits_or_put (w : Word) (hi lo n : Nat) (h : hi = lo + n) :
    upperBits w hi ||| put lo (field w lo n) = upperBits w lo := by
  apply BitVec.eq_of_getLsbD_eq
  intro k hk
  rw [BitVec.getLsbD_or, put_bit, upperBits_bit, upperBits_bit, BitVec.getLsbD_extractLsb']
  by_cases hlo : lo ≤ k
  · rw [Nat.add_sub_cancel' hlo]
    by_cases hhi : hi ≤ k
    · simp [hlo, hhi]
    · simp [hlo, hhi, hk, Nat.not_lt.2 hlo, show k - lo < n by omega]
  · simp [hlo, Nat.lt_of_not_le hlo, show ¬hi ≤ k by omega]

/-- Writing back the first field, the opcode. -/
theorem put_of_top {w : Word} {lo n : Nat} {op : BitVec n} (h : field w lo n = op) (h16 : lo + n = 16) :
    put lo op = upperBits w lo := by
  have hnone : upperBits w 16 = 0 := by simp [upperBits]
  rw [← h, ← upperBits_or_put w 16 lo n h16.symm, hnone]
  exact BitVec.zero_or.symm

/-- Writing back the next bit. -/
theorem upperBits_or_putBit (w : Word) (hi n : Nat) (h : hi = n + 1) :
    upperBits w hi ||| putBit n (bit w n) = upperBits w n := by
  have hbit : BitVec.ofBool (bit w n) = field w n 1 := by
    ext j hj
    simp [show j = 0 by omega]
  rw [putBit, hbit, upperBits_or_put w hi n 1 h]

/-- Writing back a word of an opcode and one field. -/
theorem put_or_put_field {w : Word} {n lo : Nat} {op : BitVec n} (h : field w lo n = op) (h16 : lo + n = 16) :
    put lo op ||| put 0 (field w 0 lo) = w := by
  rw [put_of_top h h16, upperBits_or_put w lo 0 lo (Nat.zero_add lo).symm, upperBits_zero]

/-! ## The opcode of each control format -/

theorem SgmFields.op_toWord (op : BitVec 5) (f : SgmFields) : field (f.toWord op) 11 5 = op := by
  simp [SgmFields.toWord, field_or_put_below, field_or_putBit_below, field_put_self]

theorem LsraFields.op_toWord (f : LsraFields) : field f.toWord 11 5 = 0b11110#5 := by
  simp [LsraFields.toWord, field_or_put_below, field_or_putBit_below, field_put_self]

theorem LsrbFields.op_toWord (b10 : Bool) (f : LsrbFields) : field (f.toWord b10) 11 5 = 0b11111#5 := by
  simp [LsrbFields.toWord, field_or_put_below, field_or_putBit_below, field_put_self]

theorem LsrbFields.toWord_bit10 (b10 : Bool) (f : LsrbFields) : bit (f.toWord b10) 10 = b10 := by
  simp [LsrbFields.toWord, BitVec.getLsbD_or, put_bit, putBit_bit, -BitVec.getLsbD_eq_getElem]

theorem LsrbbFields.op_toWord (f : LsrbbFields) : field f.toWord 10 6 = 0b111111#6 := by
  simp [LsrbbFields.toWord, field_or_putBit_below, field_put_self]

theorem LsrcFields.op_toWord (f : LsrcFields) : field f.toWord 11 5 = 0b11011#5 := by
  simp [LsrcFields.toWord, field_or_put_below, field_or_putBit_below, field_put_self]

theorem LdscopeFields.op_toWord (f : LdscopeFields) : field f.toWord 8 8 = 0b11101011#8 := by
  simp [LdscopeFields.toWord, field_or_put_below, field_or_putBit_below, field_put_self]

/-! ## Each format's writer gives back the word its reader read -/

section
variable {w : Word}

theorem SgmFields.toWord_ofWord {op : BitVec 5} (h : field w 11 5 = op) : (SgmFields.ofWord w).toWord op = w := by
  simp [SgmFields.ofWord, SgmFields.toWord, put_of_top h, upperBits_or_put, upperBits_or_putBit,
    -BitVec.getLsbD_eq_getElem]

theorem LsraFields.toWord_ofWord (h : field w 11 5 = 0b11110#5) : (LsraFields.ofWord w).toWord = w := by
  simp [LsraFields.ofWord, LsraFields.toWord, put_of_top h, upperBits_or_put, upperBits_or_putBit,
    -BitVec.getLsbD_eq_getElem]

theorem LsrbFields.toWord_ofWord {b10 : Bool} (h : field w 11 5 = 0b11111#5) (h10 : bit w 10 = b10) :
    (LsrbFields.ofWord w).toWord b10 = w := by
  simp [LsrbFields.ofWord, LsrbFields.toWord, ← h10, put_of_top h, upperBits_or_put, upperBits_or_putBit,
    -BitVec.getLsbD_eq_getElem]

theorem LsrbbFields.toWord_ofWord (h : field w 10 6 = 0b111111#6) : (LsrbbFields.ofWord w).toWord = w := by
  simp [LsrbbFields.ofWord, LsrbbFields.toWord, put_of_top h, upperBits_or_putBit, -BitVec.getLsbD_eq_getElem]

theorem LsrcFields.toWord_ofWord (h : field w 11 5 = 0b11011#5) : (LsrcFields.ofWord w).toWord = w := by
  simp [LsrcFields.ofWord, LsrcFields.toWord, put_of_top h, upperBits_or_put, upperBits_or_putBit,
    -BitVec.getLsbD_eq_getElem]

theorem LdscopeFields.toWord_ofWord (h : field w 8 8 = 0b11101011#8) : (LdscopeFields.ofWord w).toWord = w := by
  simp [LdscopeFields.ofWord, LdscopeFields.toWord, put_of_top h, upperBits_or_put, upperBits_or_putBit,
    -BitVec.getLsbD_eq_getElem]

end

section
variable {w : Word} (h : bit w 15 = false)
include h

/-- A data word has nothing at bit 15 (R49). -/
theorem upperBits_fifteen_of_data : upperBits w 15 = 0 := by
  have hnone : field w 16 0 = 0#0 := BitVec.eq_nil _
  rw [← put_of_top (field_extend hnone h) rfl]
  rfl

/-- A data word's first bit is bit 14. -/
theorem putBit_fourteen_of_data : putBit 14 (bit w 14) = upperBits w 14 := by
  rw [← upperBits_or_putBit w 15 14 rfl, upperBits_fifteen_of_data h]
  exact BitVec.zero_or.symm

/-- A CHAR word's first field is its second character (R60). -/
theorem put_eight_of_data : put 8 (field w 8 7) = upperBits w 8 := by
  rw [← upperBits_or_put w 15 8 7 rfl, upperBits_fifteen_of_data h]
  exact BitVec.zero_or.symm

theorem CharFields.toWord_ofWord : (CharFields.ofWord w).toWord = w := by
  simp [CharFields.ofWord, CharFields.toWord, put_eight_of_data h, upperBits_or_put, upperBits_or_putBit,
    -BitVec.getLsbD_eq_getElem]

theorem SvFields.toWord_ofWord : (SvFields.ofWord w).toWord = w := by
  simp [SvFields.ofWord, SvFields.toWord, putBit_fourteen_of_data h, upperBits_or_put, upperBits_or_putBit,
    -BitVec.getLsbD_eq_getElem]

theorem DeltaFields.toWord_ofWord : (DeltaFields.ofWord w).toWord = w := by
  simp [DeltaFields.ofWord, DeltaFields.toWord, putBit_fourteen_of_data h, upperBits_or_put, upperBits_or_putBit,
    -BitVec.getLsbD_eq_getElem]

theorem CoordFields.toWord_ofWord : (CoordFields.ofWord w).toWord = w := by
  simp [CoordFields.ofWord, CoordFields.toWord, putBit_fourteen_of_data h, upperBits_or_put, upperBits_or_putBit,
    -BitVec.getLsbD_eq_getElem]

theorem BsvFields.toWord_ofWord : (BsvFields.ofWord w).toWord = w := by
  simp [BsvFields.ofWord, BsvFields.toWord, putBit_fourteen_of_data h, upperBits_or_put, -BitVec.getLsbD_eq_getElem]

end

end Sys2Proof
end

