-- ==== Sys2Proof/Proofs/EncodingRoundTrip.lean ====
section
/-! PROOFS. O1 and O2: the decoder and the encoder undo each other, on every instruction that a context admits and
on every word (R49, R50, R68). -/

namespace Sys2Proof

open Laws.ClassBit in
/-- Bit 15 of an instruction's word is its class (R49). -/
theorem encode_classBit : ∀ i : Instr, bit (encode i) 15 = isControl i
  | .sgmChar f => sgmChar f | .sgmSvect f => sgmSvect f | .sgmLvect f => sgmLvect f | .sgmPoint f => sgmPoint f
  | .sgmGraphx f => sgmGraphx f | .sgmGraphy f => sgmGraphy f | .sgmRelpoint f => sgmRelpoint f
  | .sgmBsvect f => sgmBsvect f | .sgmCircle f => sgmCircle f | .sgmAbsvec f => sgmAbsvec f | .ldnr name => ldnr name
  | .lsrc f => lsrc f | .djmpAbs ignored => djmpAbs ignored | .djmpAbsVt11 ignored => djmpAbsVt11 ignored
  | .djmpRel disp => djmpRel disp | .djsrAbs ignored => djsrAbs ignored | .djsrRel disp => djsrRel disp
  | .dnop ignored => dnop ignored | .dnopVt11 ignored => dnopVt11 ignored | .dpopNr ignored => dpopNr ignored
  | .dpopR ignored => dpopR ignored | .ldscope f => ldscope f | .lassoc ignored => lassoc ignored
  | .illegalSub5 low => illegalSub5 low | .illegalSub6 low => illegalSub6 low | .illegalSub7 low => illegalSub7 low
  | .illegalOp7 low => illegalOp7 low | .illegalOp8 low => illegalOp8 low | .illegalOp9 low => illegalOp9 low
  | .illegalOp10 low => illegalOp10 low | .illegalOp11 low => illegalOp11 low | .lsra f => lsra f | .lsrb f => lsrb f
  | .lsrbVt11 ignored f => lsrbVt11 ignored f | .lsrbb f => lsrbb f | .dstop => dstop | .charData f => charData f
  | .svectData f => svectData f | .lvectData f => lvectData f | .pointData f => pointData f
  | .offsetData f => offsetData f | .graphxData f => graphxData f | .graphyData f => graphyData f
  | .relpointData f => relpointData f | .bsvectData f => bsvectData f | .circleData f => circleData f
  | .absvecData f => absvecData f

/-! ## Decoding the word of an instruction -/

/-- A data word read back in the mode that selects its format (R69); in POINT mode bit 12 of the item's first word tells
OFFSET (R63). -/
theorem decodeData_encode (ctx : DecodeCtx) (i : Instr) (h : wellFormed ctx i = true) (hi : isControl i = false) :
    decodeData ctx (encode i) = i := by
  cases i with
  | charData f | svectData f | lvectData f | graphxData f | graphyData f | relpointData f | bsvectData f | circleData f
  | absvecData f =>
    have hm := eq_of_beq h
    simp [decodeData, hm, encode, CharFields.ofWord_toWord, SvFields.ofWord_toWord, DeltaFields.ofWord_toWord,
      CoordFields.ofWord_toWord, BsvFields.ofWord_toWord]
  | pointData f | offsetData f =>
    obtain ⟨hm, hoff⟩ := Bool.and_eq_true_iff.1 h
    have h12 : bit f.toWord 12 = f.off := congrArg CoordFields.off f.ofWord_toWord
    simp only [decodeData, eq_of_beq hm, encode, h12, CoordFields.ofWord_toWord]
    simpa using hoff
  | _ => cases hi

/-- A control word read back: its opcode selects the row, on the variant that has the row (R50, R57, R58), and the row's
reader gives the fields. -/
theorem decodeControl_encode (ctx : DecodeCtx) (i : Instr) (h : wellFormed ctx i = true) (hi : isControl i = true) :
    decodeControl ctx.variant (encode i) = i := by
  cases i with
  | sgmChar f | sgmSvect f | sgmLvect f | sgmPoint f | sgmGraphx f | sgmGraphy f | sgmRelpoint f =>
    simp [encode, decodeControl, bit_of_field_eq (SgmFields.op_toWord _ f), SgmFields.ofWord_toWord,
      -BitVec.getLsbD_eq_getElem]
  | sgmBsvect f | sgmCircle f | sgmAbsvec f =>
    have hv : ctx.variant = .vs60 := eq_of_beq h
    simp [encode, decodeControl, hv, bit_of_field_eq (SgmFields.op_toWord _ f), SgmFields.ofWord_toWord,
      -BitVec.getLsbD_eq_getElem]
  | ldnr name =>
    simp only [wellFormed, Bool.and_eq_true, beq_iff_eq, decide_eq_true_eq] at h
    obtain ⟨hv, hname⟩ := h
    simp [encode, decodeControl, hv, bit_put_or_put, field_zero_put_or_put, Nat.mod_eq_of_lt hname,
      -BitVec.getLsbD_eq_getElem, -BitVec.getLsbD_or, -BitVec.extractLsb'_toNat]
  | lsrc f =>
    have hv : ctx.variant = .vs60 := eq_of_beq h
    simp [encode, decodeControl, hv, bit_of_field_eq f.op_toWord, f.ofWord_toWord, -BitVec.getLsbD_eq_getElem]
  | djmpAbs x | djsrAbs x =>
    have hv : ctx.variant = .vs60 := eq_of_beq h
    simp [encode, decodeControl, decodeJump, hv, bit_put_or_put, field_zero_put_or_put, -BitVec.getLsbD_eq_getElem,
      -BitVec.getLsbD_or]
  | djmpRel d | djsrRel d =>
    simp only [wellFormed, Bool.and_eq_true, beq_iff_eq, decide_eq_true_eq] at h
    obtain ⟨⟨hv, hlo⟩, hhi⟩ := h
    have hd : (BitVec.ofInt 9 d).toInt = d := BitVec.toInt_ofInt_eq_self (by decide) hlo hhi
    simp [encode, decodeControl, decodeJump, hv, hd, bit_put_or_put, field_zero_put_or_put, -BitVec.getLsbD_eq_getElem,
      -BitVec.getLsbD_or, -BitVec.toInt_ofInt]
  | dnop x | dpopNr x | dpopR x | lassoc x | illegalSub5 x | illegalSub6 x | illegalSub7 x =>
    have hv : ctx.variant = .vs60 := eq_of_beq h
    simp [encode, decodeControl, decodeGroup13, hv, bit_put_or_put, field_zero_put_or_put, -BitVec.getLsbD_eq_getElem,
      -BitVec.getLsbD_or]
  | ldscope f =>
    have hv : ctx.variant = .vs60 := eq_of_beq h
    simp [encode, decodeControl, decodeGroup13, hv, bit_of_field_eq f.op_toWord, f.ofWord_toWord,
      -BitVec.getLsbD_eq_getElem]
  | djmpAbsVt11 x | dnopVt11 x | illegalOp7 x | illegalOp8 x | illegalOp9 x | illegalOp10 x | illegalOp11 x =>
    have hv : ctx.variant = .vt11 := eq_of_beq h
    simp [encode, decodeControl, hv, bit_put_or_put, field_zero_put_or_put, -BitVec.getLsbD_eq_getElem,
      -BitVec.getLsbD_or]
  | lsra f =>
    have hf : f ≠ dstopFields := by simpa [wellFormed] using h
    simp [encode, decodeControl, decodeLsra, hf, bit_of_field_eq f.op_toWord, f.ofWord_toWord,
      -BitVec.getLsbD_eq_getElem]
  | dstop => rfl
  | lsrb f =>
    have hv : ctx.variant = .vs60 := eq_of_beq h
    simp [encode, decodeControl, hv, bit_of_field_eq (f.op_toWord false), f.toWord_bit10, f.ofWord_toWord,
      -BitVec.getLsbD_eq_getElem]
  | lsrbVt11 ignored f =>
    have hv : ctx.variant = .vt11 := eq_of_beq h
    simp [encode, decodeControl, hv, bit_of_field_eq (f.op_toWord ignored), f.toWord_bit10, f.ofWord_toWord,
      -BitVec.getLsbD_eq_getElem]
  | lsrbb f =>
    have hv : ctx.variant = .vs60 := eq_of_beq h
    simp [encode, decodeControl, hv, bit_of_field_eq f.op_toWord, f.ofWord_toWord, -BitVec.getLsbD_eq_getElem]
  | _ => cases hi

/-- Settles O1: bit 15 of the word tells the class, and each class's decoder reads its instruction back. -/
theorem decodeOfEncodeIsTheInstruction : Obligations.DecodeOfEncodeIsTheInstruction := by
  intro ctx i h
  rw [decode, encode_classBit]
  cases hi : isControl i with
  | true => exact decodeControl_encode ctx i h hi
  | false => exact decodeData_encode ctx i h hi

/-! ## Encoding what a word decodes to -/

/-- A word of VS60's jump group, by its bits 10 and 9 (R57). -/
theorem encode_decodeJump {w : Word} (hop : field w 11 5 = 0b11100#5) : encode (decodeJump w) = w := by
  unfold decodeJump
  split
  case h_1 | h_3 =>
    rename_i h10 h9
    exact put_or_put_field (field_extend (field_extend hop h10) h9) rfl
  case h_2 | h_4 =>
    rename_i h10 h9
    show put 9 _ ||| put 0 (BitVec.ofInt 9 (field w 0 9).toInt) = w
    rw [BitVec.ofInt_toInt]
    exact put_or_put_field (field_extend (field_extend hop h10) h9) rfl

/-- A word of VS60's group 13, by its bits 10 to 8; SUB 3 is LDSCOPE (R58, R67). -/
theorem encode_decodeGroup13 {w : Word} (hop : field w 11 5 = 0b11101#5) : encode (decodeGroup13 w) = w := by
  unfold decodeGroup13
  split
  case h_4 h10 h9 h8 => exact LdscopeFields.toWord_ofWord (field_extend (field_extend (field_extend hop h10) h9) h8)
  all_goals
    rename_i h10 h9 h8
    exact put_or_put_field (field_extend (field_extend (field_extend hop h10) h9) h8) rfl

/-- A word of the LSRA group; DSTOP's word is the one with DSTOP's fields (R72). -/
theorem encode_decodeLsra {w : Word} (hop : field w 11 5 = 0b11110#5) : encode (decodeLsra w) = w := by
  have hw := LsraFields.toWord_ofWord hop
  unfold decodeLsra
  dsimp only
  split
  case isTrue hf => rwa [hf] at hw
  case isFalse => exact hw

/-- A control word, by its opcode and the variant (R50). -/
theorem encode_decodeControl (v : Variant) {w : Word} (h15 : bit w 15 = true) : encode (decodeControl v w) = w := by
  unfold decodeControl
  split
  case h_1 | h_2 | h_3 | h_4 | h_5 | h_6 | h_7 =>
    rename_i h14 h13 h12 h11
    exact SgmFields.toWord_ofWord (field_op h15 h14 h13 h12 h11)
  case h_8 | h_9 | h_10 =>
    rename_i h14 h13 h12 h11
    cases v with
    | vs60 => exact SgmFields.toWord_ofWord (field_op h15 h14 h13 h12 h11)
    | vt11 => exact put_or_put_field (field_op h15 h14 h13 h12 h11) rfl
  case h_11 h14 h13 h12 h11 =>
    have hw := put_or_put_field (field_op h15 h14 h13 h12 h11) rfl
    cases v with
    | vs60 =>
      show put 11 _ ||| put 0 (BitVec.ofNat 11 (field w 0 11).toNat) = w
      rw [BitVec.ofNat_toNat, BitVec.setWidth_eq]
      exact hw
    | vt11 => exact hw
  case h_12 h14 h13 h12 h11 =>
    cases v with
    | vs60 => exact LsrcFields.toWord_ofWord (field_op h15 h14 h13 h12 h11)
    | vt11 => exact put_or_put_field (field_op h15 h14 h13 h12 h11) rfl
  case h_13 h14 h13 h12 h11 =>
    cases v with
    | vs60 => exact encode_decodeJump (field_op h15 h14 h13 h12 h11)
    | vt11 => exact put_or_put_field (field_op h15 h14 h13 h12 h11) rfl
  case h_14 h14 h13 h12 h11 =>
    cases v with
    | vs60 => exact encode_decodeGroup13 (field_op h15 h14 h13 h12 h11)
    | vt11 => exact put_or_put_field (field_op h15 h14 h13 h12 h11) rfl
  case h_15 h14 h13 h12 h11 => exact encode_decodeLsra (field_op h15 h14 h13 h12 h11)
  case h_16 h14 h13 h12 h11 =>
    have hop := field_op h15 h14 h13 h12 h11
    cases v with
    | vs60 =>
      dsimp only
      split
      case isTrue h10 => exact LsrbbFields.toWord_ofWord (field_extend hop h10)
      case isFalse h10 => exact LsrbFields.toWord_ofWord hop (Bool.eq_false_of_not_eq_true h10)
    | vt11 => exact LsrbFields.toWord_ofWord hop rfl

/-- A data word, by the mode (R69). -/
theorem encode_decodeData (ctx : DecodeCtx) {w : Word} (h15 : bit w 15 = false) : encode (decodeData ctx w) = w := by
  unfold decodeData
  split
  case h_1 => exact CharFields.toWord_ofWord h15
  case h_2 | h_7 => exact SvFields.toWord_ofWord h15
  case h_3 | h_9 => exact DeltaFields.toWord_ofWord h15
  case h_4 => split <;> exact CoordFields.toWord_ofWord h15
  case h_8 => exact BsvFields.toWord_ofWord h15
  case h_5 | h_6 | h_10 => exact CoordFields.toWord_ofWord h15

/-- No bit of a word is lost by decoding it (R68). -/
theorem encode_decode (ctx : DecodeCtx) (w : Word) : encode (decode ctx w) = w := by
  unfold decode
  split
  case isTrue h15 => exact encode_decodeControl ctx.variant h15
  case isFalse h15 => exact encode_decodeData ctx (Bool.eq_false_of_not_eq_true h15)

/-! ## What a word decodes to is admitted -/

/-- A displacement has nine bits with its sign (R57). -/
theorem wellFormed_decodeJump (ctx : DecodeCtx) (w : Word) (hv : ctx.variant = .vs60) :
    wellFormed ctx (decodeJump w) = true := by
  have hlo : -256 ≤ (field w 0 9).toInt := BitVec.le_toInt _
  have hhi : (field w 0 9).toInt < 256 := BitVec.toInt_lt
  unfold decodeJump
  split <;> simp only [wellFormed, hv, hlo, hhi, decide_true, Bool.and_true, beq_self_eq_true]

theorem wellFormed_decodeGroup13 (ctx : DecodeCtx) (w : Word) (hv : ctx.variant = .vs60) :
    wellFormed ctx (decodeGroup13 w) = true := by
  unfold decodeGroup13
  split <;> exact beq_iff_eq.2 hv

/-- DSTOP's word does not decode to an LSRA (R72). -/
theorem wellFormed_decodeLsra (ctx : DecodeCtx) (w : Word) : wellFormed ctx (decodeLsra w) = true := by
  unfold decodeLsra
  dsimp only
  split
  case isTrue => rfl
  case isFalse hf => simpa [wellFormed] using hf

/-- A control word decodes to a row of the variant (R50, R67). -/
theorem wellFormed_decodeControl (ctx : DecodeCtx) (w : Word) :
    wellFormed ctx (decodeControl ctx.variant w) = true := by
  unfold decodeControl
  split
  case h_1 | h_2 | h_3 | h_4 | h_5 | h_6 | h_7 => rfl
  case h_15 => exact wellFormed_decodeLsra ctx w
  all_goals cases hv : ctx.variant
  case h_11.vs60 => exact Bool.and_eq_true_iff.2 ⟨beq_iff_eq.2 hv, decide_eq_true (field w 0 11).isLt⟩
  case h_13.vs60 => exact wellFormed_decodeJump ctx w hv
  case h_14.vs60 => exact wellFormed_decodeGroup13 ctx w hv
  case h_16.vs60 =>
    dsimp only
    split <;> exact beq_iff_eq.2 hv
  all_goals exact beq_iff_eq.2 hv

/-- A data word decodes to the mode's data word, in POINT mode by the item's OFFSET bit (R63, R69). -/
theorem wellFormed_decodeData (ctx : DecodeCtx) (w : Word) : wellFormed ctx (decodeData ctx w) = true := by
  unfold decodeData
  split
  case h_4 hm =>
    split
    case isTrue hoff => exact Bool.and_eq_true_iff.2 ⟨beq_iff_eq.2 hm, hoff⟩
    case isFalse hoff =>
      exact Bool.and_eq_true_iff.2 ⟨beq_iff_eq.2 hm, congrArg not (Bool.eq_false_of_not_eq_true hoff)⟩
  all_goals
    rename_i hm
    exact beq_iff_eq.2 hm

theorem wellFormed_decode (ctx : DecodeCtx) (w : Word) : wellFormed ctx (decode ctx w) = true := by
  unfold decode
  split
  · exact wellFormed_decodeControl ctx w
  · exact wellFormed_decodeData ctx w

/-- Settles O2: the decoded instruction is one of the context's, and writing its fields gives the word. -/
theorem everyWordDecodesAndEncodesBack : Obligations.EveryWordDecodesAndEncodesBack :=
  fun ctx w => ⟨wellFormed_decode ctx w, encode_decode ctx w⟩

end Sys2Proof
end

