-- ==== Sys2Proof/Proofs/EncodingClasses.lean ====
section
/-! PROOFS. O3 and O4: the class bit, the unrecognized control words of each variant (R49, R67), and the words of the
spec's examples. -/

namespace Sys2Proof

/-! ## Rows that are never unrecognized -/

theorem isUnrecognized_decodeJump (w : Word) : isUnrecognized (decodeJump w) = false := by
  unfold decodeJump
  split <;> rfl

theorem isUnrecognized_decodeLsra (w : Word) : isUnrecognized (decodeLsra w) = false := by
  unfold decodeLsra
  dsimp only
  split <;> rfl

theorem isUnrecognized_decodeData (ctx : DecodeCtx) (w : Word) : isUnrecognized (decodeData ctx w) = false := by
  unfold decodeData
  split
  case h_4 => split <;> rfl
  all_goals rfl

/-! ## The octal ranges, by the word's high bits -/

/-- VT11's unrecognized words are those of opcodes 0111 to 1011 (R67). -/
theorem vt11Range_iff (w : Word) :
    0o134000 ≤ w.toNat ∧ w.toNat ≤ 0o157777 ↔ 23 ≤ (field w 11 5).toNat ∧ (field w 11 5).toNat ≤ 27 := by
  rw [field_toNat_of_top rfl]
  omega

/-- VS60's unrecognized words are those of group 13 with SUB 5 to 7 (R58, R67). -/
theorem vs60Range_iff (w : Word) :
    0o166400 ≤ w.toNat ∧ w.toNat ≤ 0o167777 ↔ (field w 11 5).toNat = 29 ∧ 237 ≤ (field w 8 8).toNat := by
  rw [field_toNat_of_top rfl, field_toNat_of_top rfl]
  omega

section
variable {w : Word}

theorem isUnrecognized_decodeGroup13 (hop : field w 11 5 = 0b11101#5) :
    isUnrecognized (decodeGroup13 w) = true ↔ 237 ≤ (field w 8 8).toNat := by
  unfold decodeGroup13
  split
  all_goals
    rename_i h10 h9 h8
    rw [field_extend (field_extend (field_extend hop h10) h9) h8]
    simp [isUnrecognized]

variable (h15 : bit w 15 = true)
include h15

theorem isUnrecognized_decodeControl_vt11 :
    isUnrecognized (decodeControl .vt11 w) = true ↔ 0o134000 ≤ w.toNat ∧ w.toNat ≤ 0o157777 := by
  rw [vt11Range_iff]
  unfold decodeControl
  split
  all_goals
    rename_i h14 h13 h12 h11
    rw [field_op h15 h14 h13 h12 h11]
  case h_15 => simp [isUnrecognized_decodeLsra]
  all_goals simp [isUnrecognized]

theorem isUnrecognized_decodeControl_vs60 :
    isUnrecognized (decodeControl .vs60 w) = true ↔ 0o166400 ≤ w.toNat ∧ w.toNat ≤ 0o167777 := by
  rw [vs60Range_iff]
  unfold decodeControl
  split
  all_goals
    rename_i h14 h13 h12 h11
    have hop := field_op h15 h14 h13 h12 h11
    rw [hop]
  case h_13 => simp [isUnrecognized_decodeJump]
  case h_14 => simp [isUnrecognized_decodeGroup13 hop]
  case h_15 => simp [isUnrecognized_decodeLsra]
  case h_16 =>
    dsimp only
    split <;> simp [isUnrecognized]
  all_goals simp [isUnrecognized]

end

/-- A data word lies below both ranges (R49). -/
theorem toNat_lt_of_data {w : Word} (h15 : bit w 15 = false) : w.toNat < 0o100000 := by
  have hnone : field w 16 0 = 0#0 := BitVec.eq_nil _
  have htop : w.toNat / 2 ^ 15 = 0 := toNat_div_of_top (field_extend hnone h15) rfl
  omega

theorem isControl_decode (ctx : DecodeCtx) (w : Word) : isControl (decode ctx w) = bit w 15 := by
  rw [← encode_classBit, encode_decode]

/-- Settles O3: the class by the round trip, the unrecognized words by the opcode of each variant. -/
theorem classAndUnrecognizedEncodings : Obligations.ClassAndUnrecognizedEncodings := by
  intro ctx w
  refine ⟨isControl_decode ctx w, ?_⟩
  unfold decode
  split
  case isTrue h15 =>
    cases hv : ctx.variant with
    | vt11 => simpa using isUnrecognized_decodeControl_vt11 h15
    | vs60 => simpa using isUnrecognized_decodeControl_vs60 h15
  case isFalse h15 =>
    have hlt := toNat_lt_of_data (Bool.eq_false_of_not_eq_true h15)
    rw [isUnrecognized_decodeData]
    simp only [Bool.false_eq_true, false_iff]
    omega

/-- Settles O4, by running the decoder on each word. -/
theorem exampleWordsDecode : Obligations.ExampleWordsDecode := by
  unfold Obligations.ExampleWordsDecode
  decide

end Sys2Proof
end

