-- ==== Sys2Proof/Proofs/ModeAndStatusA.lean ====
section
/-! PROOFS. O11, O12 and O20: SGM, LSRA with DSTOP, and the unrecognized opcodes (R72, R88, R89, R105). -/

namespace Sys2Proof.Machine

/-- Settles O11: each of the ten rows is the one operation `setGraphicMode`. -/
theorem sgmLoadsModeAndSelectedFields : Obligations.SgmLoadsModeAndSelectedFields := by
  intro f i m s h
  simp only [List.mem_cons, Prod.mk.injEq, List.not_mem_nil, or_false] at h
  rcases h with ⟨rfl, rfl⟩ | ⟨rfl, rfl⟩ | ⟨rfl, rfl⟩ | ⟨rfl, rfl⟩ | ⟨rfl, rfl⟩ | ⟨rfl, rfl⟩ | ⟨rfl, rfl⟩ | ⟨rfl, rfl⟩ |
    ⟨rfl, rfl⟩ | ⟨rfl, rfl⟩ <;> rfl

/-- Settles O20: each of the eight rows is `hang`. -/
theorem unrecognizedOpcodeHangs : Obligations.UnrecognizedOpcodeHangs := by
  intro i s h
  cases i with
  | illegalSub5 x | illegalSub6 x | illegalSub7 x | illegalOp7 x | illegalOp8 x | illegalOp9 x | illegalOp10 x
  | illegalOp11 x => rfl
  | _ => cases h

/-- The sync rate code that LSRA loads: on VT11 the spec's encoding has no bit 3 (R53, R89). -/
theorem syncCode_eq (s : State) (sync : BitVec 2) :
    syncCode s sync = if s.cfg.variant = .vt11 ∧ s.cfg.encoding = .spec then sync &&& 1 else sync := by
  unfold syncCode isVs60
  cases s.cfg.encoding <;> cases s.cfg.variant <;> simp

/-- What LSRA loads before STOP and SYNC (R89). -/
theorem lsraLoads_eq (f : LsraFields) (s : State) :
    lsraLoads f s = { s with
      regs := { s.regs with stopIntrEna := if f.lsi then f.si else s.regs.stopIntrEna, syncRate := syncCode s f.sync,
                            menu := if s.cfg.variant = .vs60 ∧ f.lmn = true then f.mn else s.regs.menu }
      P := { s.P with lpIntensify := if f.llpi then f.lpi else s.P.lpIntensify,
                      italics := if f.lit then f.it else s.P.italics } } := by
  simp only [lsraLoads, isVs60, Bool.and_eq_true, beq_iff_eq]

/-- STOP wins over the wait for frame sync (R89). -/
theorem loadStatusA_of_stop (f : LsraFields) (s : State) (h : f.stop = true) :
    loadStatusA f s = { lsraLoads f s with
      flags := { s.flags with stopFlag := true }, pend := { s.pend with internalStop := true } } := by
  simp only [loadStatusA, h, if_true]
  rfl

/-- Without STOP and with rate 0 there are the loads alone (R89). -/
theorem loadStatusA_of_no_sync (f : LsraFields) (s : State) (h : f.stop = false) (hsync : syncCode s f.sync = 0) :
    loadStatusA f s = lsraLoads f s := by
  simp [loadStatusA, h, hsync]

/-- Without STOP and with a rate the run waits for the next frame boundary (R89, R153). -/
theorem loadStatusA_of_sync (f : LsraFields) (s : State) (h : f.stop = false) (hsync : syncCode s f.sync ≠ 0) :
    loadStatusA f s = { lsraLoads f s with
      run := .awaitSync, syncTarget := frameTarget s.cfg s.ph.profile s.ph.clock (syncCode s f.sync) } := by
  simp only [loadStatusA, h, hsync, if_false, Bool.false_eq_true]
  rfl

/-- Settles O12: the loads, then one of the three outcomes; DSTOP is the LSRA of `dstopFields`. -/
theorem lsraLoadsThenStopsOrWaits : Obligations.LsraLoadsThenStopsOrWaits := by
  rintro f s sync _ _ hsync rfl rfl
  rw [← syncCode_eq] at hsync
  subst hsync
  refine ⟨fun hstop => ?_, fun hstop h0 => ?_, fun hstop h0 => ?_, ?_⟩
  · rw [exec_lsra, execLsra, loadStatusA_of_stop f s hstop, lsraLoads_eq]
  · rw [exec_lsra, execLsra, loadStatusA_of_no_sync f s hstop h0, lsraLoads_eq]
  · rw [exec_lsra, execLsra, loadStatusA_of_sync f s hstop h0, lsraLoads_eq, frameTarget]
  · have h0 : syncCode s dstopFields.sync = 0 := by
      rw [syncCode_eq]
      split <;> rfl
    rw [exec_dstop, execDstop, loadStatusA_of_stop dstopFields s rfl, lsraLoads_eq, h0]
    simp [dstopFields]

end Sys2Proof.Machine
end

