-- ==== Sys2Proof/Proofs/ItemAssembly.lean ====
section
/-! PROOFS. O25 and O26: how the words of an item are put together (R51, R106), and the CIRCLE items (R124). -/

namespace Sys2Proof.Machine

/-- A word that does not complete its item is kept (R106). -/
theorem assemble_of_short {m : Mode} {item : List Word → State → State} {w : Word} {s : State}
    (h : (s.acc ++ [w]).length < itemWords s m (s.acc ++ [w])) : assemble m item w s = { s with acc := s.acc ++ [w] } :=
  if_neg (Nat.not_le.2 h)

/-- A word that completes its item, or comes after it, runs the item on the words it has (R106). -/
theorem assemble_of_whole {m : Mode} {item : List Word → State → State} {w : Word} {s : State}
    (h : itemWords s m (s.acc ++ [w]) ≤ (s.acc ++ [w]).length) :
    assemble m item w s = item ((s.acc ++ [w]).take (itemWords s m (s.acc ++ [w]))) { s with acc := [] } :=
  if_pos h

/-- The last word of an item, or a word beyond it, under the spec's encoding (R51, R106). -/
theorem assemble_of_spec {m : Mode} {item : List Word → State → State} {w : Word} {s : State} {ws : List Word}
    (he : s.cfg.encoding = .spec) (hacc : s.acc ++ [w] = ws) (h : itemLen m (zWords s) ≤ ws.length) :
    assemble m item w s = item (ws.take (itemLen m (zWords s))) { s with acc := [] } := by
  subst hacc
  have hn := itemWords_of_spec s m (s.acc ++ [w]) he
  rw [assemble_of_whole (hn.trans_le h), hn]

/-- A data word of a mode of one item a word or more is assembled into the item of its mode (R106). -/
theorem exec_of_item {i : Instr} {m : Mode} {item : List Word → State → State} (s : State)
    (h : ∃ (a : SvFields) (f : DeltaFields) (g : CoordFields), (i, m, item) ∈ ([(.svectData a, .svect, svectItem),
      (.relpointData a, .relpoint, relpointItem), (.lvectData f, .lvect, lvectItem),
      (.circleData f, .circle, circleItem), (.pointData g, .point, pointModeItem),
      (.offsetData g, .point, pointModeItem), (.graphxData g, .graphx, graphxItem),
      (.graphyData g, .graphy, graphyItem), (.absvecData g, .absvec, absvecItem)]
      : List (Instr × Mode × (List Word → State → State)))) : exec i s = .next (assemble m item (encode i) s) := by
  obtain ⟨a, f, g, h⟩ := h
  simp only [List.mem_cons, Prod.mk.injEq, List.not_mem_nil, or_false] at h
  rcases h with ⟨rfl, rfl, rfl⟩ | ⟨rfl, rfl, rfl⟩ | ⟨rfl, rfl, rfl⟩ | ⟨rfl, rfl, rfl⟩ | ⟨rfl, rfl, rfl⟩ |
    ⟨rfl, rfl, rfl⟩ | ⟨rfl, rfl, rfl⟩ | ⟨rfl, rfl, rfl⟩ | ⟨rfl, rfl, rfl⟩ <;> rfl

/-- The lengths of R51. -/
theorem itemLen_eq (m : Mode) (z : Bool) : itemLen m z =
    if m = .lvect ∨ m = .point ∨ m = .absvec then (if z then 3 else 2)
    else if m = .circle then (if z then 6 else 4) else 1 := by
  cases m <;> rfl

/-- Settles O26: the two outcomes of `assemble`, the excess words of a shrunk item, and the lengths of each encoding. -/
theorem wordsOfAnItemAreAssembled : Obligations.WordsOfAnItemAreAssembled := by
  refine ⟨?_, ?_, ?_⟩
  · rintro i m item s _ _ hi rfl rfl
    rw [exec_of_item s hi]
    exact ⟨fun h => congrArg _ (assemble_of_short h), fun h => congrArg _ (assemble_of_whole h)⟩
  · rintro f g a b c d e s _ he hz rfl
    refine ⟨fun hacc => ?_, fun hacc => ?_⟩
    · have h2 (m item w) (hm : itemLen m false = 2) : assemble m item w s = item [a, b] { s with acc := [] } := by
        rw [assemble_of_spec he (congrArg (· ++ [w]) hacc) (by rw [hz, hm]; exact Nat.le_succ 2), hz, hm]
        rfl
      refine ⟨?_, ?_, ?_, ?_⟩ <;> exact congrArg _ (h2 _ _ _ rfl)
    · rw [exec_circleData, execCircleData]
      rcases hacc with hacc | hacc
      · rw [assemble_of_spec he (congrArg (· ++ [f.toWord]) hacc) (by simp [hz, itemLen]), hz]
        rfl
      · rw [assemble_of_spec he (congrArg (· ++ [f.toWord]) hacc) (by simp [hz, itemLen]), hz]
        rfl
  · intro s m ws k
    refine ⟨fun he => ?_, ?_⟩
    · rw [itemWords_of_spec s m ws he, itemLen_eq]
    · rintro e _ he rfl
      refine ⟨?_, ?_, fun o ho => ?_⟩
      · rw [itemWords, he]
        rfl
      · rw [itemLit, he]
      · rw [itemOperand, he]
        simp only [ItemFormat.operand, ho]

/-! ## CIRCLE items -/

/-- An arc's pixels are those of the state before the move, which changes no control field (R110, R136). -/
theorem arcItem_eq (dc de : Pt3) (i : Bool) (s : State) :
    arcItem dc de i s = drawRun none false
      (pixelRun s (arcPoints s.cfg (viewport s) (displayed s s.pos) (addPt (displayed s s.pos) dc)
        (displayed s (addPt s.pos de))) i)
      (moveTo (addPt s.pos de) s) := by
  simp only [arcItem, pixelRun_moveTo, viewport_moveTo, moveTo_cfg]

/-- A CIRCLE item by the operands it reads, under any encoding (R124). -/
theorem circleItem_eq (ws : List Word) (s : State) (d : Nat → Int) (k : Nat) (np q : Pt3)
    (hd : d = (fun n => scaled s (itemOperand s .circle ws n))) (hk : k = (if zWords s then 3 else 2))
    (hnp : np = ⟨s.pos.x + d k, s.pos.y + d (k + 1), s.pos.z + if zWords s then d 5 else 0⟩)
    (hq : q = addPt (displayed s s.pos) ⟨d 0, d 1, if zWords s then d 2 else 0⟩) :
    circleItem ws s = drawRun none false
      (pixelRun s (arcPoints s.cfg (viewport s) (displayed s s.pos) q (displayed s np)) (itemLit s .circle ws))
      { s with pos := np, rpt := displayed s np } := by
  subst hd hk hnp hq
  rw [circleItem, arcItem_eq]
  cases zWords s <;> rfl

/-- A pixel run does not depend on the item begun (R110). -/
theorem pixelRun_acc (acc : List Word) (s : State) : pixelRun { s with acc := acc } = pixelRun s :=
  funext fun pts => funext fun i => pixelRun_congr (s := { s with acc := acc }) (t := s) rfl rfl rfl rfl pts i

/-- Operand `n` of a CIRCLE item is the delta of its word `n` (R62, R65). -/
theorem itemOperand_circle (s : State) (ws : List Word) (n : Nat) (g : DeltaFields) (he : s.cfg.encoding = .spec)
    (hw : wordAt ws n = g.toWord) : itemOperand s .circle ws n = smag g.s g.m := by
  rw [itemOperand_of_spec s .circle ws n he, specOperand, hw, deltaOf_delta]

/-- The intensify bit of a CIRCLE item is its first word's (R62). -/
theorem itemLit_circle (s : State) (ws : List Word) (g : DeltaFields) (he : s.cfg.encoding = .spec) :
    itemLit s .circle (g.toWord :: ws) = g.i := by
  rw [itemLit_of_spec s .circle _ he]
  exact congrArg DeltaFields.i g.ofWord_toWord

/-- A CIRCLE item of four words: centre X and Y, end X and Y (R65, R124). -/
theorem circleItem_of_words (a b c f : DeltaFields) (s : State) (he : s.cfg.encoding = .spec) (hz : zWords s = false)
    (np : Pt3) (hnp : np = ⟨s.pos.x + scaled s (smag c.s c.m), s.pos.y + scaled s (smag f.s f.m), s.pos.z⟩) :
    circleItem [a.toWord, b.toWord, c.toWord, f.toWord] s = drawRun none false
      (pixelRun s (arcPoints s.cfg (viewport s) (displayed s s.pos)
        (addPt (displayed s s.pos) ⟨scaled s (smag a.s a.m), scaled s (smag b.s b.m), 0⟩) (displayed s np)) a.i)
      { s with pos := np, rpt := displayed s np } := by
  have hop (n g) := itemOperand_circle s [a.toWord, b.toWord, c.toWord, f.toWord] n g he
  rw [circleItem_eq _ s _ 2 np _ rfl (by simp [hz]) (by simp [hnp, hz, hop 2 c rfl, hop 3 f rfl]) rfl,
    itemLit_circle s _ a he]
  simp [hz, hop 0 a rfl, hop 1 b rfl]

/-- A CIRCLE item of six words: the centre with its Z, then the end with its Z (R65, R124). -/
theorem circleItem_of_words_with_z (a b c d e f : DeltaFields) (s : State) (he : s.cfg.encoding = .spec)
    (hz : zWords s = true) (np : Pt3)
    (hnp : np = ⟨s.pos.x + scaled s (smag d.s d.m), s.pos.y + scaled s (smag e.s e.m),
      s.pos.z + scaled s (smag f.s f.m)⟩) :
    circleItem [a.toWord, b.toWord, c.toWord, d.toWord, e.toWord, f.toWord] s = drawRun none false
      (pixelRun s (arcPoints s.cfg (viewport s) (displayed s s.pos)
        (addPt (displayed s s.pos) ⟨scaled s (smag a.s a.m), scaled s (smag b.s b.m), scaled s (smag c.s c.m)⟩)
        (displayed s np)) a.i)
      { s with pos := np, rpt := displayed s np } := by
  have hop (n g) := itemOperand_circle s [a.toWord, b.toWord, c.toWord, d.toWord, e.toWord, f.toWord] n g he
  rw [circleItem_eq _ s _ 3 np _ rfl (by simp [hz])
    (by simp [hnp, hz, hop 3 d rfl, hop 4 e rfl, hop 5 f rfl]) rfl, itemLit_circle s _ a he]
  simp [hz, hop 0 a rfl, hop 1 b rfl, hop 2 c rfl]

/-- Settles O25: the last word runs the item, whose operands are the deltas of its words. -/
theorem circleItemsDrawTheArc : Obligations.CircleItemsDrawTheArc := by
  refine ⟨?_, ?_, circleItem_eq⟩
  · rintro a b c f s _ np _ he hz hacc hnp rfl rfl
    rw [exec_circleData, execCircleData, assemble_of_spec he (congrArg (· ++ [f.toWord]) hacc) (by rw [hz]; rfl), hz,
      ← pixelRun_acc [] s]
    exact congrArg _ (circleItem_of_words a b c f { s with acc := [] } he hz np hnp)
  · rintro a b c d e f s _ np _ he hz hacc hnp rfl rfl
    rw [exec_circleData, execCircleData, assemble_of_spec he (congrArg (· ++ [f.toWord]) hacc) (by rw [hz]; rfl), hz,
      ← pixelRun_acc [] s]
    exact congrArg _ (circleItem_of_words_with_z a b c d e f { s with acc := [] } he hz np hnp)

end Sys2Proof.Machine
end

/-! PROOFS. O5, O6 and O7: what a step that is a cycle does, from the sample to the aging (R74 to R78). -/

namespace Sys2Proof.Machine

/-! ## From the step to the unit of work -/

/-- A step with an operation listed is that operation (R74). -/
theorem step_of_todo {s : State} {op : HostOp} {rest : List HostOp} (h : s.todo = op :: rest) :
    step s = hostStep op { s with todo := rest, out := [] } := by
  unfold step transition
  rw [h]

/-- Settles O6: both steps are the cycle on the same inputs. -/
theorem stepWithoutOperationIsACycle : Obligations.StepWithoutOperationIsACycle := by
  intro s h
  have hfree : step s = cycle (Config.freeInput s.tick) { s with out := [] } := by
    unfold step transition
    rw [h]
  have hnil : { s with out := [] } = { s with todo := [], out := [] } := by rw [← h]
  rw [hfree, hnil, step_of_todo rfl]
  rfl

/-- The tip switch's part of a Running machine's sample, `b` whether it reports a change (R76). -/
theorem sampleTip_of_running {s : State} {b : Bool} (tip : Bool) (hrun : s.run = .running)
    (hb : b = (tip != s.flags.tipSw && s.P.lpIntrEna && s.regs.cons0)) :
    sampleTip tip s = { s with
      flags := { s.flags with tipSw := tip, tipChanged := s.flags.tipChanged || b },
      pend := { s.pend with lightPenHit := s.pend.lightPenHit || b } } := by
  unfold sampleTip
  dsimp only
  split_ifs with hsame hreport
  · simp [hb, hsame]
  · obtain ⟨-, hpen, hcons⟩ := hreport
    have : b = true := by simp [hb, hsame, hpen, hcons]
    simp [this, raise, pendSet]
  · have : b = false := by
      simp only [hrun, true_and] at hreport
      simpa [hb, hsame] using hreport
    simp [this]

/-- The sample of a Running machine, `b` whether it reports a change of the tip switch (R76). -/
theorem sample_of_running {s : State} {b : Bool} (inp : CycleIn) (hrun : s.run = .running)
    (hb : b = (inp.tip != s.flags.tipSw && s.P.lpIntrEna && s.regs.cons0)) :
    sample inp s = { s with
      blinkOn := inp.blinkOn,
      flags := { s.flags with tipSw := inp.tip, tipChanged := s.flags.tipChanged || b },
      pend := { s.pend with lightPenHit := s.pend.lightPenHit || b },
      ph := { s.ph with penX := inp.mouseX * s.ph.scale, penY := inp.mouseY * s.ph.scale } } :=
  sampleTip_of_running inp.tip hrun hb

/-- A cycle of a Running machine: the sample, the unit of work, the check and the aging (R75). -/
theorem cycle_of_running (inp : CycleIn) {s : State} (hready : s.ph.ready = true) (hrun : s.run = .running) :
    cycle inp s = thenDo (work inp.timeout (countCycle (sample inp s))) fun t => age inp.elapsed (check t) := by
  have hrun' : (countCycle (sample inp s)).run = .running := by
    rw [sample_of_running inp hrun rfl]
    exact hrun
  unfold cycle
  rw [if_pos hready]
  exact if_pos hrun'

/-- A step that is a cycle of a Running machine (R74, R75). -/
theorem step_of_running_cycle {s : State} {inp : CycleIn} {rest : List HostOp} (htodo : s.todo = .cycle inp :: rest)
    (hready : s.ph.ready = true) (hrun : s.run = .running) :
    step s = thenDo (work inp.timeout (countCycle (sample inp { s with todo := rest, out := [] })))
      fun t => age inp.elapsed (check t) := by
  rw [step_of_todo htodo]
  exact cycle_of_running inp hready hrun

/-! ## The unit of work -/

/-- With a request latched nothing is worked on (R75). -/
theorem work_of_latched (timeout : Bool) {s : State} (h : s.pend ≠ noPend) : work timeout s = .next s := if_neg h

/-- A clipped remainder goes before everything else (R75, R80). -/
theorem work_of_clipPend (timeout : Bool) {s : State} {c : Cont} (hpend : s.pend = noPend)
    (hc : s.clipPend = some c) : work timeout s = .next (clipStep c s) := by
  unfold work
  rw [if_pos hpend, hc]

/-- A held second half goes before a fetch (R75, R78). -/
theorem work_of_pendHalf (timeout : Bool) {s : State} {h : Half} (hpend : s.pend = noPend) (hc : s.clipPend = none)
    (hh : s.pendHalf = some h) : work timeout s = .next (halfStep h s) := by
  unfold work
  rw [if_pos hpend, hc, hh]

/-- With nothing held over a word is fetched (R75, R77). -/
theorem work_of_fetch (timeout : Bool) {s : State} (hpend : s.pend = noPend) (hc : s.clipPend = none)
    (hh : s.pendHalf = none) : work timeout s = fetchStep timeout s := by
  unfold work
  rw [if_pos hpend, hc, hh]

/-- A word not awaited begins an instruction or belongs to a data item (R77). -/
theorem dispatchWord_of_not_awaited (w : Word) {s : State} (h : s.ctlPend = none) :
    dispatchWord w s = execWord w s := by
  unfold dispatchWord
  rw [h]

/-! ## What a word does under each encoding -/

section
variable (w : Word) (s : State)

/-- Under the spec's own encoding the decoded instruction is executed (R77). -/
theorem execWord_of_spec (h : s.cfg.encoding = .spec) : execWord w s = exec (decode (decodeCtx s) w) s := by
  unfold execWord
  rw [h]

variable {t : EncTable}

/-- Under a replaced table bit 15 still tells a data word (R49; log 18). -/
theorem execWord_of_table_data (h : s.cfg.encoding = .table t) (hclass : w.getLsbD 15 = false) :
    execWord w s = exec (decodeTableData t (decodeCtx s) w) s := by
  unfold execWord
  rw [h]
  exact if_neg (ne_true_of_eq_false hclass)

/-- Under a replaced table a control word without a row hangs the machine (log 18). -/
theorem execWord_of_no_row (h : s.cfg.encoding = .table t) (hclass : w.getLsbD 15 = true)
    (hrow : t.row s.cfg.variant w = none) : execWord w s = .next (hang s) := by
  simp [execWord, h, hclass, hrow]

variable {r : EncRow}

/-- Under a replaced table a control word whose row has an operand word is held until that comes (log 18). -/
theorem execWord_of_two_words (h : s.cfg.encoding = .table t) (hclass : w.getLsbD 15 = true)
    (hrow : t.row s.cfg.variant w = some r) (htwo : r.twoWords = true) :
    execWord w s = .next { s with ctlPend := some (.held w) } := by
  simp [execWord, h, hclass, hrow, htwo]

/-- Under a replaced table a control word of a row without an operand word is run at once (log 18). -/
theorem execWord_of_one_word (h : s.cfg.encoding = .table t) (hclass : w.getLsbD 15 = true)
    (hrow : t.row s.cfg.variant w = some r) (hone : r.twoWords = false) : execWord w s = execRow r [w] s := by
  simp [execWord, h, hclass, hrow, hone]

end

/-! ## The cycle of a Running machine -/

/-- Settles O7: the sample leaves a request latched, so that there is no unit of work. -/
theorem latchedRequestIsTakenBeforeAnyWork : Obligations.LatchedRequestIsTakenBeforeAnyWork := by
  rintro s _ inp rest tip htodo hready hrun htip hlatched rfl
  rw [step_of_running_cycle htodo hready hrun,
    sample_of_running (s := { s with todo := rest, out := [] }) inp hrun htip]
  have hpend : { s.pend with lightPenHit := s.pend.lightPenHit || tip } ≠ noPend := by
    cases tip with
    | true => simp [noPend]
    | false => simpa using hlatched
  exact congrArg (thenDo · _) (work_of_latched inp.timeout hpend)

/-- Settles O5: the sample latches nothing, so that the cycle works on the first thing there is. -/
theorem stepRunsTheDecodedInstruction : Obligations.StepRunsTheDecodedInstruction := by
  rintro s u v inp rest w _ htodo hready hrun hpend htip hu hv hw rfl
  have hquiet : false = (inp.tip != s.flags.tipSw && s.P.lpIntrEna && s.regs.cons0) := by
    rcases htip with h | h | h <;> simp [h]
  have hsampled : countCycle (sample inp { s with todo := rest, out := [] }) = u := by
    rw [sample_of_running (s := { s with todo := rest, out := [] }) inp hrun hquiet, hu]
    simp [countCycle]
  have hstep : step s = thenDo (work inp.timeout u) fun t => age inp.elapsed (check t) := by
    rw [step_of_running_cycle htodo hready hrun, hsampled]
  have hupend : u.pend = noPend := by rw [hu, ← hpend]
  have hclip : u.clipPend = s.clipPend := by rw [hu]
  have hhalf : u.pendHalf = s.pendHalf := by rw [hu]
  refine ⟨fun c hc => ?_, fun h hc hh => ?_, fun hc hh htime => ?_⟩
  · rw [hstep, work_of_clipPend _ hupend (hclip.trans hc)]
    rfl
  · rw [hstep, work_of_pendHalf _ hupend (hclip.trans hc) (hhalf.trans hh)]
    rfl
  · have hfetched : step s = thenDo (dispatchWord w v) fun t => age inp.elapsed (check t) := by
      rw [hstep, work_of_fetch _ hupend (hclip.trans hc) (hhalf.trans hh), htime, hv, hw, ← wrapAddr_add_two, hu]
      rfl
    refine ⟨fun _ _ => hfetched, fun hctl => ?_⟩
    have hexec : step s = thenDo (execWord w v) fun t => age inp.elapsed (check t) := by
      rw [hfetched, dispatchWord_of_not_awaited w (by rw [hv, hu, ← hctl])]
    have hcfg : v.cfg = s.cfg := by rw [hv, hu]
    have hctx : decodeCtx v = decodeCtx s := by rw [hv, hu]; rfl
    rw [← hcfg, ← hctx, hexec]
    refine ⟨fun i he hi => ?_, fun t he => ⟨fun hclass => ?_, fun hclass => ⟨fun r hr => ⟨fun h2 => ?_, fun h1 => ?_⟩,
      fun hr => ?_⟩⟩⟩
    · rw [execWord_of_spec w v he, hi]
    · rw [execWord_of_table_data w v he hclass]
    · rw [execWord_of_two_words w v he hclass hr h2]
      rfl
    · rw [execWord_of_one_word w v he hclass hr h1]
    · rw [execWord_of_no_row w v he hclass hr]
      rfl

end Sys2Proof.Machine

/-! PROOFS. O27: the two items of a CHAR or BSVECT word (R79, R106). -/

namespace Sys2Proof.Machine

section
variable {k : PairKind} {b0 : BitVec 7} (b1 : BitVec 7) {s : State}

/-- An item that ends character processing discards the second (R106, R138). -/
theorem execPair_of_ended (h : (pairItem k b0 s).2 = true) : execPair k b0 b1 s = (pairItem k b0 s).1 := if_pos h

/-- With nothing latched the second item runs in the same cycle (R79). -/
theorem execPair_of_noPend (hgoes : (pairItem k b0 s).2 = false) (h : (pairItem k b0 s).1.pend = noPend) :
    execPair k b0 b1 s = (pairItem k b1 (pairItem k b0 s).1).1 := by
  simp [execPair, hgoes, h]

/-- After a request the second item is held (R79). -/
theorem execPair_of_latched (hgoes : (pairItem k b0 s).2 = false) (h : (pairItem k b0 s).1.pend ≠ noPend) :
    execPair k b0 b1 s = { (pairItem k b0 s).1 with pendHalf := some ⟨k, b1⟩ } := by
  simp [execPair, hgoes, h]

end

/-- A CHAR word runs the pair that the encoding reads from it (R115). -/
theorem exec_charData_of_pair {f : CharFields} {s : State} {b0 b1 : BitVec 7}
    (h : charPair s.cfg.encoding f = (b0, b1)) : exec (.charData f) s = .next (execPair .char b0 b1 s) := by
  rw [exec_charData, execCharData, h]

/-- A BSVECT word runs the pair that the encoding reads from it (R123). -/
theorem exec_bsvectData_of_pair {f : BsvFields} {s : State} {b0 b1 : BitVec 7}
    (h : bsvectPair s.cfg.encoding f = (b0, b1)) : exec (.bsvectData f) s = .next (execPair .bsvect b0 b1 s) := by
  rw [exec_bsvectData, execBsvectData, h]

/-- Settles O27: the outcomes of `execPair`, a BSVECT item never ending the processing. -/
theorem pairWordsRunTheirTwoItems : Obligations.PairWordsRunTheirTwoItems := by
  refine ⟨fun f s b0 b1 hpair => ?_, fun f s b0 b1 hpair => ?_, fun _ _ => ⟨rfl, rfl⟩, fun _ _ => ⟨rfl, rfl⟩⟩
  · rw [exec_charData_of_pair hpair]
    exact ⟨fun hends => congrArg _ (execPair_of_ended b1 hends),
      fun hgoes hpend => congrArg _ (execPair_of_noPend b1 hgoes hpend),
      fun hgoes hpend => congrArg _ (execPair_of_latched b1 hgoes hpend)⟩
  · rw [exec_bsvectData_of_pair hpair]
    exact ⟨fun hpend => congrArg _ (execPair_of_noPend b1 rfl hpend),
      fun hpend => congrArg _ (execPair_of_latched b1 rfl hpend)⟩

end Sys2Proof.Machine

/-! PROOFS. O48 and O49: the host's ways into and out of the run states: START, ExtStop and RESUME (R81 to R84). -/

namespace Sys2Proof.Machine

/-- A write of the DPC in either form is one step of `setDpc` (R81, R86). -/
theorem step_of_dpcWrite {s : State} {op : HostOp} {rest : List HostOp} {v : Word} (htodo : s.todo = op :: rest)
    (hop : op = .setDpc v ∨ op = .hostWrite 0 v) : step s = .next (setDpc v { s with todo := rest, out := [] }) := by
  rw [step_of_todo htodo]
  rcases hop with rfl | rfl <;> rfl

/-- A value with bit 0 clear is a START (R81). -/
theorem setDpc_of_even {v : Word} (s : State) (h : v.getLsbD 0 = false) : setDpc v s = start v s :=
  if_neg (ne_true_of_eq_false h)

/-- A value with bit 0 set is a RESUME (R81). -/
theorem setDpc_of_odd {v : Word} (s : State) (h : v.getLsbD 0 = true) : setDpc v s = resume s := if_pos h

/-- The address of a word with bit 0 clear is its value, modulo the address space (R40, R43). -/
theorem evenAddr_of_even (c : Params) {v : Word} (h : v.getLsbD 0 = false) :
    evenAddr c v = v.toNat % 2 ^ c.addrBits := by
  have heven : v.toNat / 2 * 2 = v.toNat := by
    rw [BitVec.getLsbD, Nat.testBit_zero, decide_eq_false_iff_not] at h
    omega
  calc evenAddr c v = wrapAddr c (addrOperand v : Nat) := rfl
    _ = v.toNat % 2 ^ c.addrBits := by rw [wrapAddr_natCast, addrOperand_eq, heven]

/-- ExtStop in either kind of run state (R84). -/
theorem extStop_eq (s : State) :
    extStop s = if s.run = .halted ∨ s.run = .hung then s else { s with
      flags := { s.flags with extStopFlag := true }, pend := { s.pend with externalStop := true } } := by
  split_ifs with hidle
  · rcases hidle with h | h <;> simp [extStop, h]
  · rw [not_or] at hidle
    exact extStop_of_live s hidle.1 hidle.2

/-- Settles O48: a START by either write, and ExtStop. -/
theorem startAndExternalStop : Obligations.StartAndExternalStop := by
  rintro s _ op rest htodo rfl
  refine ⟨fun v heven hop => ?_, ?_⟩
  · rw [step_of_dpcWrite htodo hop, setDpc_of_even _ heven, start, evenAddr_of_even _ heven, startFlags]
  · rintro rfl
    rw [step_of_todo htodo]
    exact congrArg _ (extStop_eq _)

/-- With the light pen masked a run is lit whole, and ends with its exit edge event (R83, R111). -/
theorem drawRun_masked (exit : Option Pt3) (run : List Pixel) (s : State) :
    drawRun exit true run s = exit.elim (lightAll run s) fun q => edgeEvent q true (lightAll run s) := by
  induction run generalizing s with
  | nil => cases exit <;> rfl
  | cons p rest ih =>
    have hmiss : drawRun exit true (p :: rest) s = drawRun exit true rest (illuminate p.x p.y p.i p.c s).1 := by
      simp [drawRun]
    rw [hmiss, ih]
    rfl

section
variable {s : State} {r : Reason} (hwait : s.run = .awaitResume r)
include hwait

/-- A RESUME from `AwaitResume(r)` with nothing left to draw clears the flags and runs (R83). -/
theorem resume_of_no_remainder (h : s.lpCont = none) :
    resume s = { s with flags := clearReason r (clearStops s.flags), run := .running } := by
  rw [resume_of_waiting s r hwait, drawRemainder]
  simp [h]

/-- A RESUME from `AwaitResume(r)` lights the rest of the primitive stopped, the light pen masked, and runs (R83). -/
theorem resume_of_remainder {run : List Pixel} {exit : Option Pt3} (h : s.lpCont = some ⟨run, exit⟩) :
    resume s = { drawRun exit true run { s with flags := clearReason r (clearStops s.flags), lpCont := none } with
      run := .running } := by
  rw [resume_of_waiting s r hwait, drawRemainder]
  simp [h]

end

/-- Settles O49: a RESUME in a wait draws the remainder, in any other run state it only clears the stop flags. -/
theorem resumeFinishesTheStoppedPrimitive : Obligations.ResumeFinishesTheStoppedPrimitive := by
  rintro s _ v op rest htodo hop hodd rfl
  rw [step_of_dpcWrite htodo hop, setDpc_of_odd _ hodd]
  refine ⟨fun hrun => congrArg _ (resume_of_not_waiting _ hrun), fun r fl hrun hfl => ?_⟩
  have hreason : fl = clearReason r (clearStops s.flags) := by
    rw [hfl]
    cases r <;> rfl
  subst hreason
  refine ⟨fun hnone => ?_, fun run hsome => ?_, fun run q hsome => ?_⟩
  · exact congrArg _ (resume_of_no_remainder (s := { s with todo := rest, out := [] }) hrun hnone)
  · rw [resume_of_remainder (s := { s with todo := rest, out := [] }) hrun hsome, drawRun_masked]
    rfl
  · rw [resume_of_remainder (s := { s with todo := rest, out := [] }) hrun hsome, drawRun_masked]
    rfl

end Sys2Proof.Machine

/-! PROOFS. O46: the work of a cycle notifies no one, the check notifies once and waits for a reason of the class
notified, and aging does neither (R75, R157, R158). -/

namespace Sys2Proof.Machine

/-- No call of this step notifies the host (R158). -/
def NoNotice (s : State) : Prop := s.out.filter isNotify = []

/-- The one notification of this step is that of the reason waited for (R157, R158). -/
def NotifiedOf (r : Reason) (s : State) : Prop :=
  s.run = .awaitResume r ∧ s.out.filter isNotify = [.notify (notifyClass r)]

/-! ## Drawing notifies no one -/

theorem noNotice_illuminate {s : State} (h : NoNotice s) (x y : Int) (i : BitVec 3) (c : BitVec 1) :
    NoNotice (illuminate x y i c s).1 := by
  unfold illuminate
  split
  · exact h
  · exact h

theorem noNotice_drawRun {s : State} (h : NoNotice s) (exit : Option Pt3) (masked : Bool) (run : List Pixel) :
    NoNotice (drawRun exit masked run s) := by
  induction run generalizing s with
  | nil => cases exit <;> exact h
  | cons p rest ih =>
    have hlit := noNotice_illuminate h p.x p.y p.i p.c
    unfold drawRun
    dsimp only
    split
    · exact hlit
    · exact ih hlit

theorem noNotice_segment {s : State} (h : NoNotice s) (p0 p1 : Pt3) (i : Bool) : NoNotice (segment p0 p1 i s) := by
  unfold segment
  split
  · exact h
  · dsimp only
    split
    · exact noNotice_drawRun h ..
    · exact noNotice_drawRun h ..
    all_goals
      split
      · exact h
      · exact noNotice_drawRun h ..

theorem noNotice_vecItem {s : State} (h : NoNotice s) (p : Pt3) (i : Bool) : NoNotice (vecItem p i s) :=
  noNotice_segment (s := moveTo p s) h ..

theorem noNotice_pointItem {s : State} (h : NoNotice s) (p : Pt3) (i : Bool) : NoNotice (pointItem p i s) := by
  unfold pointItem
  dsimp only
  split
  · exact noNotice_drawRun (s := moveTo p s) h ..
  · exact h

theorem noNotice_arcItem {s : State} (h : NoNotice s) (dc de : Pt3) (i : Bool) : NoNotice (arcItem dc de i s) :=
  noNotice_drawRun (s := moveTo (addPt s.pos de) s) h ..

theorem noNotice_clipStep {s : State} (h : NoNotice s) (c : Cont) : NoNotice (clipStep c s) :=
  noNotice_drawRun (s := { s with clipPend := none }) h ..

/-! ## Characters notify no one -/

theorem noNotice_lightGlyph {s : State} (h : NoNotice s) (run : List Pixel) (first : Option Pt3) :
    NoNotice (lightGlyph run first s).1 := by
  induction run generalizing first s with
  | nil => exact h
  | cons p rest ih => exact ih (noNotice_illuminate h p.x p.y p.i p.c) _

theorem noNotice_glyphDraw {s : State} (h : NoNotice s) (pts : List Pt3) : NoNotice (glyphDraw pts s) := by
  have hlit := noNotice_lightGlyph h (if lit s true then pts.map (pixelAt s) else []) none
  unfold glyphDraw
  dsimp only
  split
  · exact hlit
  · exact hlit

theorem noNotice_charCrossing {s : State} (h : NoNotice s) (o o' : Pt3) : NoNotice (charCrossing o o' s) := by
  unfold charCrossing
  split
  · exact h
  · exact h

theorem noNotice_printCode {s : State} (h : NoNotice s) (draw : Bool) (set : CharSet) (b : BitVec 7) :
    NoNotice (printCode draw set b s) := by
  have hmoved : NoNotice (moveTo (advanced s) s) := h
  unfold printCode glyph faultedGlyph
  dsimp only
  split_ifs
  · exact noNotice_glyphDraw hmoved _
  · exact noNotice_charCrossing hmoved ..
  · exact noNotice_charCrossing hmoved ..
  · exact hmoved

theorem noNotice_charCode {s : State} (h : NoNotice s) (draw : Bool) (b : BitVec 7) :
    NoNotice (charCode draw b s) := by
  unfold charCode
  split_ifs
  · exact h
  · exact h
  · exact h
  · exact h
  · exact h
  · exact noNotice_printCode h ..
  · exact h
  · exact noNotice_printCode h ..

/-! ## The stack notifies no one -/

theorem noNotice_raiseStackFault {s : State} (h : NoNotice s) : NoNotice (raiseStackFault s) := by
  rw [raiseStackFault_eq]
  exact h

theorem noNotice_pop {s : State} (h : NoNotice s) (restore : Bool) : NoNotice (pop restore s) := by
  by_cases hframe : s.sp.val < 8
  · rw [pop_of_frame restore s hframe]
    cases restore <;> exact h
  · rw [pop_of_empty restore s hframe]
    exact noNotice_raiseStackFault h

theorem noNotice_callSub {s : State} (h : NoNotice s) (target : Nat) : NoNotice (callSub target s) := by
  by_cases hfull : s.sp = 0
  · rw [callSub_of_full target s hfull]
    exact h
  · rw [callSub_of_room target s (Fin.pos_iff_ne_zero.2 hfull)]
    exact h

/-! ## The data words notify no one -/

theorem noNotice_charFaultItem {s : State} (h : NoNotice s) (b : BitVec 7) : NoNotice (charFaultItem b s) :=
  noNotice_charCode (s := moveTo s.pos (raise .charFault { s with flags := { s.flags with charFault := true } })) h
    false b

theorem noNotice_charItem {s : State} (h : NoNotice s) (b : BitVec 7) : NoNotice (charItem b s).1 := by
  unfold charItem
  split_ifs
  · exact noNotice_pop h true
  · exact noNotice_charFaultItem h b
  · exact noNotice_charCode h true b

theorem noNotice_pairItem {s : State} (h : NoNotice s) (k : PairKind) (b : BitVec 7) :
    NoNotice (pairItem k b s).1 := by
  cases k with
  | char => exact noNotice_charItem h b
  | bsvect => exact noNotice_vecItem h ..

theorem noNotice_execPair {s : State} (h : NoNotice s) (k : PairKind) (b0 b1 : BitVec 7) :
    NoNotice (execPair k b0 b1 s) := by
  have hfirst := noNotice_pairItem h k b0
  unfold execPair
  dsimp only
  split_ifs
  · exact hfirst
  · exact noNotice_pairItem hfirst k b1
  · exact hfirst

theorem noNotice_halfStep {s : State} (h : NoNotice s) (k : Half) : NoNotice (halfStep k s) :=
  noNotice_pairItem (s := { s with pendHalf := none }) h ..

theorem noNotice_pointModeItem (ws : List Word) {s : State} (h : NoNotice s) : NoNotice (pointModeItem ws s) := by
  unfold pointModeItem
  split
  · exact h
  · exact noNotice_pointItem h ..

theorem noNotice_assemble {s : State} (h : NoNotice s) (m : Mode) {item : List Word → State → State}
    (hitem : ∀ (ws : List Word) {s : State}, NoNotice s → NoNotice (item ws s)) (w : Word) :
    NoNotice (assemble m item w s) := by
  unfold assemble
  dsimp only
  split
  · exact hitem _ (s := { s with acc := [] }) h
  · exact h

/-! ## The instructions and the fetched word -/

theorem noNotice_loadStatusA {s : State} (h : NoNotice s) (f : LsraFields) : NoNotice (loadStatusA f s) := by
  unfold loadStatusA
  dsimp only
  split_ifs <;> exact h

/-- No instruction's meaning notifies the host (R157, R158). -/
theorem exec_noNotice {s : State} (h : NoNotice s) (i : Instr) : Ensures NoNotice (exec i s) := by
  cases i with
  | sgmChar f | sgmSvect f | sgmLvect f | sgmPoint f | sgmGraphx f | sgmGraphy f | sgmRelpoint f | sgmBsvect f
  | sgmCircle f | sgmAbsvec f => exact .next h
  | lsrb f | lsrbVt11 ign f | lsrbb f | lsrc f | ldscope f => exact .next h
  | djmpAbs ign | djmpAbsVt11 ign | djmpRel disp | djsrAbs ign | lassoc ign => exact .next h
  | dnop ign | dnopVt11 ign => exact .next h
  | illegalSub5 low | illegalSub6 low | illegalSub7 low | illegalOp7 low | illegalOp8 low | illegalOp9 low
  | illegalOp10 low | illegalOp11 low => exact .next h
  | ldnr name =>
    rw [exec_ldnr, execLdnr]
    dsimp only
    split <;> exact .next h
  | lsra f => exact .next (noNotice_loadStatusA h f)
  | dstop => exact .next (noNotice_loadStatusA h dstopFields)
  | djsrRel disp => exact .next (noNotice_callSub h _)
  | dpopNr ign => exact .next (noNotice_pop h false)
  | dpopR ign => exact .next (noNotice_pop h true)
  | charData f | bsvectData f => exact .next (noNotice_execPair h ..)
  | svectData f | lvectData f | absvecData f =>
    exact .next (noNotice_assemble h _ (fun _ _ hs => noNotice_vecItem hs ..) _)
  | pointData f | offsetData f => exact .next (noNotice_assemble h _ noNotice_pointModeItem _)
  | graphxData f | graphyData f | relpointData f =>
    exact .next (noNotice_assemble h _ (fun _ _ hs => noNotice_pointItem hs ..) _)
  | circleData f => exact .next (noNotice_assemble h _ (fun _ _ hs => noNotice_arcItem hs ..) _)

theorem execRow_noNotice {s : State} (h : NoNotice s) (r : EncRow) (ws : List Word) :
    Ensures NoNotice (execRow r ws s) := by
  obtain ⟨x, hx⟩ | ⟨-, x, hx⟩ | ⟨-, x, hx⟩ | hx := execRow_cases r ws s <;> rw [hx]
  · exact .next h
  · exact .next (noNotice_callSub h _)
  · exact .next h
  · exact exec_noNotice h _

theorem execOperand_noNotice {s : State} (h : NoNotice s) (k : CtlPend) (w : Word) :
    Ensures NoNotice (execOperand k w s) := by
  cases k with
  | djmpAbs | lassoc => exact .next h
  | djsrAbs => exact .next (noNotice_callSub h _)
  | held first =>
    unfold execOperand
    dsimp only
    split
    · exact execRow_noNotice h _ _
    · exact .next h

theorem execWord_noNotice {s : State} (h : NoNotice s) (w : Word) : Ensures NoNotice (execWord w s) := by
  unfold execWord
  split
  · exact exec_noNotice h _
  · split_ifs
    · split
      · exact .next h
      · split_ifs
        · exact .next h
        · exact execRow_noNotice h _ _
    · exact exec_noNotice h _

theorem dispatchWord_noNotice {s : State} (h : NoNotice s) (w : Word) : Ensures NoNotice (dispatchWord w s) := by
  unfold dispatchWord
  split
  · exact execOperand_noNotice (s := { s with ctlPend := none }) h _ w
  · exact execWord_noNotice h w

/-! ## The parts of a cycle -/

/-- The sample makes no call and leaves the run state (R76). -/
theorem sample_run_out (inp : CycleIn) (s : State) : (sample inp s).run = s.run ∧ (sample inp s).out = s.out := by
  unfold sample sampleTip
  dsimp only
  split_ifs <;> exact ⟨rfl, rfl⟩

theorem noNotice_sample {s : State} (h : NoNotice s) (inp : CycleIn) : NoNotice (sample inp s) := by
  unfold NoNotice
  rw [(sample_run_out inp s).2]
  exact h

theorem work_noNotice {s : State} (h : NoNotice s) (timeout : Bool) : Ensures NoNotice (work timeout s) := by
  by_cases hpend : s.pend = noPend
  · match hc : s.clipPend, hh : s.pendHalf with
    | some c, _ =>
      rw [work_of_clipPend timeout hpend hc]
      exact .next (noNotice_clipStep h c)
    | none, some k =>
      rw [work_of_pendHalf timeout hpend hc hh]
      exact .next (noNotice_halfStep h k)
    | none, none =>
      rw [work_of_fetch timeout hpend hc hh]
      cases timeout with
      | true => exact .next h
      | false => exact dispatchWord_noNotice (s := advanceDpc s) h _
  · rw [work_of_latched timeout hpend]
    exact .next h

/-- The check notifies the host at most once, of the reason it waits for (R157, R158). -/
theorem check_notice {s : State} (h : NoNotice s) : NoNotice (check s) ∨ ∃ r, NotifiedOf r (check s) := by
  unfold check
  split
  · exact .inl h
  · next r _ =>
    rw [takeInterrupt_eq]
    by_cases hsilent : silentStop r s = true
    · left
      rw [hsilent]
      exact h
    · right
      refine ⟨r, rfl, ?_⟩
      dsimp only
      rw [if_neg hsilent, List.filter_cons_of_pos rfl, h]

/-- Decay shows colours and notifies no one (R150). -/
theorem decayLoop_notices (n : Nat) (s : State) : (decayLoop n s).out.filter isNotify = s.out.filter isNotify := by
  induction n generalizing s with
  | zero => rfl
  | succ n ih =>
    unfold decayLoop
    split
    · rfl
    · split
      · exact ih _
      · rfl

/-- Aging notifies no one (R150). -/
theorem age_notices (e : Nat) (s : State) : (age e s).out.filter isNotify = s.out.filter isNotify := by
  have hsync (t : State) : (frameSync t).out = t.out := by
    unfold frameSync
    split <;> rfl
  unfold age
  rw [call_out, List.filter_cons_of_neg (by simp [isNotify]), hsync, decayLoop_notices]

theorem noNotice_age {s : State} (h : NoNotice s) (e : Nat) : NoNotice (age e s) := (age_notices e s).trans h

/-- Aging ends no wait for a reason (R153). -/
theorem notifiedOf_age {s : State} {r : Reason} (h : NotifiedOf r s) (e : Nat) : NotifiedOf r (age e s) := by
  obtain ⟨hrun, hnotice⟩ := h
  refine ⟨?_, (age_notices e s).trans hnotice⟩
  rw [age_eq]
  simp [hrun]

/-- A cycle notifies the host at most once, out of Running, of the reason it then waits for (R75, R157). -/
theorem cycle_notice {s : State} (h : NoNotice s) (inp : CycleIn) :
    Ensures (fun t => NoNotice t ∨ s.run = .running ∧ ∃ r, NotifiedOf r t) (cycle inp s) := by
  have hsampled : NoNotice (countCycle (sample inp s)) := noNotice_sample h inp
  unfold cycle
  dsimp only
  split
  · split
    · next hrun =>
      rw [countCycle_run, (sample_run_out inp s).1] at hrun
      refine (work_noNotice hsampled inp.timeout).thenDo fun t ht => ?_
      obtain hquiet | ⟨r, hr⟩ := check_notice ht
      · exact .inl (noNotice_age hquiet _)
      · exact .inr ⟨hrun, r, notifiedOf_age hr _⟩
    · exact .next (.inl (noNotice_age hsampled _))
  · exact .refused _

/-- Settles O46: a step begins with no call made, and its cycle makes at most one notification. -/
theorem cycleNotifiesAtMostOnce : Obligations.CycleNotifiesAtMostOnce := by
  intro s t inp rest htodo hstep
  rw [step_of_todo htodo] at hstep
  have hmem {c : NotifyClass} (hc : .notify c ∈ t.out) : .notify c ∈ t.out.filter isNotify :=
    List.mem_filter.2 ⟨hc, rfl⟩
  obtain hquiet | ⟨hrun, r, hwait, hnotice⟩ :=
    cycle_notice (s := { s with todo := rest, out := [] }) rfl inp t hstep
  · rw [hquiet] at hmem ⊢
    exact ⟨Nat.zero_le 1, fun c hc => absurd (hmem hc) List.not_mem_nil⟩
  · rw [hnotice] at hmem ⊢
    refine ⟨le_rfl, fun c hc => ⟨hrun, r, hwait, ?_⟩⟩
    exact (OutCall.notify.inj (List.mem_singleton.1 (hmem hc))).symm

end Sys2Proof.Machine

/-! PROOFS. O13, O14 and O15: LSRB, LSRBB, LSRC, LDSCOPE and LDNR, the empty instruction and the first words of the
two-word instructions (R90 to R93, R95, R101 to R104). -/

namespace Sys2Proof.Machine

/-- Settles O13: each row's meaning is its loads and nothing else, and both rows of LSRB are `loadStatusB`. -/
theorem statusLoadsLoadSelectedFields : Obligations.StatusLoadsLoadSelectedFields := by
  refine ⟨?lsrb, fun f s => exec_lsrbb f s, fun f s => exec_lsrc f s, fun f s => exec_ldscope f s⟩
  case lsrb =>
    rintro f b s _ rfl
    exact ⟨exec_lsrb f s, exec_lsrbVt11 b f s⟩

/-- LDNR of the associative name, the test enabled: the name, the flag and the request (R101). -/
theorem execLdnr_of_match {name : Nat} {s : State}
    (h : s.regs.nameIntrEna = true ∧ nameOf s.cfg name = s.regs.assoc) :
    execLdnr name s = .next { s with
      regs := { s.regs with name := nameOf s.cfg name }, flags := { s.flags with nameMatch := true },
      pend := { s.pend with nameMatch := true } } := if_pos h

/-- LDNR of another name, or with the test disabled: the name alone (R101). -/
theorem execLdnr_of_no_match {name : Nat} {s : State}
    (h : ¬(s.regs.nameIntrEna = true ∧ nameOf s.cfg name = s.regs.assoc)) :
    execLdnr name s = .next { s with regs := { s.regs with name := nameOf s.cfg name } } := if_neg h

/-- Settles O14: the two outcomes of LDNR's test. -/
theorem ldnrLoadsAndTestsTheName : Obligations.LdnrLoadsAndTestsTheName := by
  rintro f s _ rfl
  exact ⟨execLdnr_of_match, execLdnr_of_no_match⟩

/-- Settles O15: the first word of a two-word instruction sets `ctlPend` alone, and DNOP answers the state it has. -/
theorem dnopIsEmptyAndTwoWordInstructionsAwait : Obligations.DnopIsEmptyAndTwoWordInstructionsAwait := fun a b c s =>
  ⟨exec_djmpAbs a s, exec_djmpAbsVt11 b s, exec_djsrAbs a s, exec_lassoc c s, exec_dnop c s, exec_dnopVt11 b s⟩

end Sys2Proof.Machine

/-! PROOFS. O17, O18 and O19: the relative jump and call, the pops, and that a restoring pop undoes a call (R94, R96 to
R100). -/

namespace Sys2Proof.Machine

/-- The target of a relative jump or call, in the spec's words (R94, R96). -/
theorem relTarget_eq (s : State) (d : Int) :
    relTarget s d = (((s.dpc : Int) + 2 * d) % (2 ^ s.cfg.addrBits : Nat)).toNat := rfl

/-- Settles O17: the jump to `relTarget`, and the call of it with room and on a full stack. -/
theorem relativeJumpsAndCalls : Obligations.RelativeJumpsAndCalls := by
  rintro d s _ rfl
  rw [← relTarget_eq]
  exact ⟨exec_djmpRel d s, fun hroom => congrArg _ (callSub_of_room _ s hroom),
    fun hfull => congrArg _ (callSub_of_full _ s hfull)⟩

/-- A pop of an empty stack sets the flag and, where enabled, latches the request (R98). -/
theorem pop_eq_of_empty (restore : Bool) (s : State) (h : ¬s.sp.val < 8) :
    pop restore s =
      { s with flags := { s.flags with stackUnder := true },
               pend := { s.pend with stackFault := s.pend.stackFault || s.regs.stackIntrEna } } := by
  rw [pop_of_empty restore s h, raiseStackFault_eq]

/-- Settles O18: both pops with a frame and on an empty stack. -/
theorem popsReturnAndRestore : Obligations.PopsReturnAndRestore := by
  intro x s
  refine ⟨fun hframe => ?_, ?_⟩
  · exact ⟨congrArg _ (pop_of_frame false s hframe), congrArg _ (pop_of_frame true s hframe)⟩
  · rintro hsp _ rfl
    have hempty : ¬s.sp.val < 8 := by simp [hsp]
    exact ⟨congrArg _ (pop_eq_of_empty false s hempty), congrArg _ (pop_eq_of_empty true s hempty)⟩

/-- A restoring pop after a call gives back the name and the parameter set of the call's frame, whatever they were set
to meanwhile; the rest of the caller's state is kept but for the frame written and the item's words (R97, R100). -/
theorem pop_callSub (target : Nat) (s : State) (p : ParamSet) (n : Nat) (h : 0 < s.sp.val) :
    pop true { callSub target s with P := p, regs := { (callSub target s).regs with name := n } } =
      { s with stk := s.stk.set (s.sp.val - 1) { dpc := s.dpc, name := s.regs.name, P := s.P } (by omega),
               acc := [] } := by
  have hsp : s.sp.val - 1 + 1 = s.sp.val := by omega
  rw [callSub_of_room target s h, pop_of_frame true _ (show s.sp.val - 1 < 8 by omega)]
  simp [hsp]

/-- Settles O19: the call found room, so the pop reads the frame that it pushed. -/
theorem returnUndoesTheCall : Obligations.ReturnUndoesTheCall := by
  rintro d x s _ p n hroom ⟨⟩
  exact ⟨_, congrArg Host.Outcome.next (pop_callSub _ s p n hroom), rfl, rfl, rfl, rfl, rfl, rfl⟩

end Sys2Proof.Machine

/-! PROOFS. O28 and O32: what a data word may change, and the terminate character (R87, R106, R138). Beside what drawing
may change, the words of an item are their own to change, and the two items of a CHAR or BSVECT word have the three
relations below, each wider than the one before it and each kept by one item after another. -/

namespace Sys2Proof.Machine

/-! ## Items of one word or more -/

/-- What a data word does to an item: it is kept, or it runs the item with nothing left begun (R106). -/
theorem assemble_cases (m : Mode) (item : List Word → State → State) (w : Word) (s : State) :
    assemble m item w s = { s with acc := s.acc ++ [w] } ∨
      ∃ ws, assemble m item w s = item ws { s with acc := [] } := by
  obtain h | h := lt_or_ge (s.acc ++ [w]).length (itemWords s m (s.acc ++ [w]))
  · exact .inl (assemble_of_short h)
  · exact .inr ⟨_, assemble_of_whole h⟩

/-- A word of an item that draws changes the item's words and what drawing may change (R87, R106). -/
theorem drawn_assemble (m : Mode) {item : List Word → State → State} (hitem : ∀ ws s, Drawn s (item ws s)) (w : Word)
    (s : State) : Drawn { s with acc := (assemble m item w s).acc } (assemble m item w s) := by
  obtain h | ⟨ws, h⟩ := assemble_cases m item w s <;> rw [h]
  · rfl
  · obtain ⟨v, hv⟩ : ∃ v, item ws { s with acc := [] } = drawnState { s with acc := [] } v := ⟨_, hitem ws _⟩
    rw [hv]
    rfl

/-- An item in POINT mode changes the offsets or what drawing may change (R118, R119). -/
theorem drawn_pointModeItem (ws : List Word) (s : State) :
    ∃ v, pointModeItem ws s = drawnState { s with off := v.off } v := by
  unfold pointModeItem
  split
  · exact ⟨offsetItem ws s, rfl⟩
  · obtain ⟨v, hv⟩ : ∃ v, pointItem (absMove .point ws s) (itemLit s .point ws) s = drawnState s v :=
      ⟨_, drawn_pointItem ..⟩
    exact ⟨drawnState s v, hv⟩

/-- A word in POINT mode changes the item's words, the offsets and what drawing may change (R118, R119). -/
theorem drawn_assemble_point (w : Word) (s : State) :
    Drawn { s with acc := (assemble .point pointModeItem w s).acc, off := (assemble .point pointModeItem w s).off }
      (assemble .point pointModeItem w s) := by
  obtain h | ⟨ws, h⟩ := assemble_cases .point pointModeItem w s <;> rw [h]
  · rfl
  · obtain ⟨v, hv⟩ := drawn_pointModeItem ws { s with acc := [] }
    rw [hv]
    rfl

/-! ## Items of half a word -/

/-- `t` differs from `s` only in the held half and in what drawing can change. -/
def HalfDrawn (s t : State) : Prop := Drawn { s with pendHalf := t.pendHalf } t

/-- `s` with what a character that does not return can change, beside drawing, as in `t`: the held half, the shift and
the character fault. -/
def charState (s t : State) : State :=
  { s with pendHalf := t.pendHalf, regs := { s.regs with so := t.regs.so },
           flags := { s.flags with charFault := t.flags.charFault },
           pend := { s.pend with charFault := t.pend.charFault } }

/-- `t` differs from `s` only in what a character that does not return can change. -/
def CharDrawn (s t : State) : Prop := Drawn (charState s t) t

/-- `s` with what any character can change, beside drawing, as in `t`: what `charState` lists and what a restoring pop
changes. -/
def returnState (s t : State) : State :=
  { s with pendHalf := t.pendHalf, regs := { s.regs with so := t.regs.so, name := t.regs.name },
           sp := t.sp, dpc := t.dpc, P := t.P, acc := t.acc,
           flags := { s.flags with charFault := t.flags.charFault, stackUnder := t.flags.stackUnder },
           pend := { s.pend with charFault := t.pend.charFault, stackFault := t.pend.stackFault } }

/-- `t` differs from `s` only in what a character, the terminate character among them, can change. -/
def ReturnDrawn (s t : State) : Prop := Drawn (returnState s t) t

section
variable {s t u : State}

/- A frame relation says that `t` has its changed fields from itself; naming them `v` lets `t` be substituted. -/

theorem Drawn.halfDrawn (h : Drawn s t) : HalfDrawn s t := by
  obtain ⟨v, rfl⟩ : ∃ v, t = drawnState s v := ⟨t, h⟩
  rfl

theorem CharDrawn.returnDrawn (h : CharDrawn s t) : ReturnDrawn s t := by
  obtain ⟨v, rfl⟩ : ∃ v, t = drawnState (charState s v) v := ⟨t, h⟩
  rfl

theorem HalfDrawn.trans (h1 : HalfDrawn s t) (h2 : HalfDrawn t u) : HalfDrawn s u := by
  obtain ⟨v, rfl⟩ : ∃ v, t = drawnState { s with pendHalf := v.pendHalf } v := ⟨t, h1⟩
  exact h2

theorem CharDrawn.trans (h1 : CharDrawn s t) (h2 : CharDrawn t u) : CharDrawn s u := by
  obtain ⟨v, rfl⟩ : ∃ v, t = drawnState (charState s v) v := ⟨t, h1⟩
  exact h2

theorem ReturnDrawn.trans (h1 : ReturnDrawn s t) (h2 : ReturnDrawn t u) : ReturnDrawn s u := by
  obtain ⟨v, rfl⟩ : ∃ v, t = drawnState (returnState s v) v := ⟨t, h1⟩
  exact h2

/-- A character that does not return leaves what tells the terminate character (R138). -/
theorem CharDrawn.terminates_eq (h : CharDrawn s t) (b : BitVec 7) : terminates b t = terminates b s := by
  obtain ⟨v, rfl⟩ : ∃ v, t = drawnState (charState s v) v := ⟨t, h⟩
  rfl

end

/-- A two-item word changes what its two items, one after the other, and holding the second half change (R79, R106). -/
theorem execPair_of_trans {R : State → State → Prop} (htrans : ∀ {s t u}, R s t → R t u → R s u)
    (hheld : ∀ s p, R s { s with pendHalf := p }) (k : PairKind) (b0 b1 : BitVec 7) (s : State)
    (h0 : R s (pairItem k b0 s).1) (h1 : R (pairItem k b0 s).1 (pairItem k b1 (pairItem k b0 s).1).1) :
    R s (execPair k b0 b1 s) := by
  cases hends : (pairItem k b0 s).2 with
  | true =>
    rw [execPair_of_ended b1 hends]
    exact h0
  | false =>
    by_cases hpend : (pairItem k b0 s).1.pend = noPend
    · rw [execPair_of_noPend b1 hends hpend]
      exact htrans h0 h1
    · rw [execPair_of_latched b1 hends hpend]
      exact htrans h0 (hheld _ _)

/-- A BSVECT word (R123). -/
theorem halfDrawn_execPair (b0 b1 : BitVec 7) (s : State) : HalfDrawn s (execPair .bsvect b0 b1 s) :=
  execPair_of_trans (R := HalfDrawn) .trans (fun _ _ => rfl) .bsvect b0 b1 s (drawn_bsvItem b0 s).halfDrawn
    (drawn_bsvItem b1 _).halfDrawn

/-! ## Characters -/

theorem charDrawn_charCode (draw : Bool) (b : BitVec 7) (s : State) : CharDrawn s (charCode draw b s) := by
  obtain ⟨v, hv⟩ : ∃ v, charCode draw b s = drawnState { s with regs := { s.regs with so := v.regs.so } } v :=
    ⟨_, drawn_charCode draw b s⟩
  rw [hv]
  rfl

theorem charDrawn_charFaultItem (b : BitVec 7) (s : State) : CharDrawn s (charFaultItem b s) :=
  CharDrawn.trans (t := moveTo s.pos (raise .charFault { s with flags := { s.flags with charFault := true } })) rfl
    (charDrawn_charCode false b _)

/-- The terminate character pops and ends the processing (R138). -/
theorem charItem_of_terminates {b : BitVec 7} {s : State} (h : terminates b s = true) :
    charItem b s = (pop true s, true) := if_pos h

/-- Any other character draws, shifts and may fault (R137, R162). -/
theorem charDrawn_charItem {b : BitVec 7} {s : State} (h : terminates b s = false) : CharDrawn s (charItem b s).1 := by
  unfold charItem
  rw [if_neg (Bool.eq_false_iff.1 h)]
  split
  · exact charDrawn_charFaultItem b s
  · exact charDrawn_charCode true b s

theorem returnDrawn_pop (s : State) : ReturnDrawn s (pop true s) := by
  by_cases h : s.sp.val < 8
  · rw [pop_of_frame true s h]
    rfl
  · rw [pop_eq_of_empty true s h]
    rfl

theorem returnDrawn_charItem (b : BitVec 7) (s : State) : ReturnDrawn s (charItem b s).1 := by
  cases h : terminates b s with
  | true =>
    rw [charItem_of_terminates h]
    exact returnDrawn_pop s
  | false => exact (charDrawn_charItem h).returnDrawn

/-- A CHAR word without the terminate character (R115, R137). -/
theorem charDrawn_execPair {b0 b1 : BitVec 7} {s : State} (h0 : terminates b0 s = false)
    (h1 : terminates b1 s = false) : CharDrawn s (execPair .char b0 b1 s) :=
  have hfirst := charDrawn_charItem h0
  execPair_of_trans (R := CharDrawn) .trans (fun _ _ => rfl) .char b0 b1 s hfirst
    (charDrawn_charItem ((hfirst.terminates_eq b1).trans h1))

/-- Any CHAR word (R115, R138). -/
theorem returnDrawn_execPair (b0 b1 : BitVec 7) (s : State) : ReturnDrawn s (execPair .char b0 b1 s) :=
  execPair_of_trans (R := ReturnDrawn) .trans (fun _ _ => rfl) .char b0 b1 s (returnDrawn_charItem b0 s)
    (returnDrawn_charItem b1 _)

/-- Which code terminates, and where (R138). -/
theorem terminates_iff (b : BitVec 7) (s : State) :
    terminates b s = true ↔ s.cfg.variant = .vs60 ∧ s.P.charEsc = true ∧ b = s.regs.termChar := by
  simp [terminates, isVs60, and_assoc]

/-- No code terminates on the VT11 or with the escape disabled, nor another code than the terminate code (R138). -/
theorem terminates_of_not {b : BitVec 7} {s : State}
    (h : s.cfg.variant = .vt11 ∨ s.P.charEsc = false ∨ b ≠ s.regs.termChar) : terminates b s = false := by
  rw [Bool.eq_false_iff, ne_eq, terminates_iff]
  rintro ⟨hvar, hesc, hb⟩
  obtain h | h | h := h
  · exact Variant.noConfusion (hvar.symm.trans h)
  · exact Bool.noConfusion (hesc.symm.trans h)
  · exact h hb

/-- Settles O28: a data word is `assemble` of an item that draws, or the two items of `execPair`. -/
theorem dataWordsChangeOnlyWhatDrawingMay : Obligations.DataWordsChangeOnlyWhatDrawingMay := by
  refine ⟨?item, fun f s => ⟨_, rfl, rfl, drawn_assemble_point f.toWord s⟩,
    fun f s => ⟨_, rfl, halfDrawn_execPair _ _ s⟩, fun f s => ⟨_, rfl, fun h => ?_, returnDrawn_execPair _ _ s⟩⟩
  case item =>
    rintro i s ⟨a, d, c, hi⟩
    simp only [List.mem_cons, List.not_mem_nil, or_false] at hi
    rcases hi with rfl | rfl | rfl | rfl | rfl | rfl | rfl
    · exact ⟨_, rfl, drawn_assemble .svect (fun _ _ => drawn_vecItem ..) a.toWord s⟩
    · exact ⟨_, rfl, drawn_assemble .relpoint (fun _ _ => drawn_pointItem ..) a.toWord s⟩
    · exact ⟨_, rfl, drawn_assemble .lvect (fun _ _ => drawn_vecItem ..) d.toWord s⟩
    · exact ⟨_, rfl, drawn_assemble .circle (fun _ _ => drawn_arcItem ..) d.toWord s⟩
    · exact ⟨_, rfl, drawn_assemble .graphx (fun _ _ => drawn_pointItem ..) c.toWord s⟩
    · exact ⟨_, rfl, drawn_assemble .graphy (fun _ _ => drawn_pointItem ..) c.toWord s⟩
    · exact ⟨_, rfl, drawn_assemble .absvec (fun _ _ => drawn_vecItem ..) c.toWord s⟩
  · exact charDrawn_execPair (terminates_of_not (h.imp_right (Or.imp_right And.left)))
      (terminates_of_not (h.imp_right (Or.imp_right And.right)))

/-- Settles O32: the first half ends the word; before the second half the first has left the terminate code alone. -/
theorem terminateCharacterReturns : Obligations.TerminateCharacterReturns := by
  intro f s b0 b1 hpair hvar hesc
  rw [exec_charData_of_pair hpair]
  refine ⟨fun hb0 => ?_, fun t hb0 hb1 hfirst hpend => ?_⟩
  · have hfirst : pairItem .char b0 s = (pop true s, true) :=
      charItem_of_terminates ((terminates_iff b0 s).2 ⟨hvar, hesc, hb0⟩)
    rw [execPair_of_ended b1 (congrArg Prod.snd hfirst), hfirst]
    rfl
  · have hdrawn : CharDrawn s t := by
      have h := charDrawn_charItem (terminates_of_not (.inr (.inr hb0)))
      rwa [hfirst] at h
    have hterm : terminates b1 t = true :=
      (hdrawn.terminates_eq b1).trans ((terminates_iff b1 s).2 ⟨hvar, hesc, hb1⟩)
    have hsecond : pairItem .char b1 t = (pop true t, true) := charItem_of_terminates hterm
    change pairItem .char b0 s = (t, false) at hfirst
    have hnoPend : (pairItem .char b0 s).1.pend = noPend := by rw [hfirst, hpend]
    rw [execPair_of_noPend b1 (congrArg Prod.snd hfirst) hnoPend, hfirst, hsecond]
    rfl

end Sys2Proof.Machine

/-! PROOFS. O21 to O24: the items of the graphic-data words, by the operands that they read (R107, R116 to R125). -/

namespace Sys2Proof.Machine

/-! ## The last word of an item -/

/-- The last word of an item runs the item on all its words, under the spec's encoding (R51, R106). -/
theorem assemble_of_last {m : Mode} {item : List Word → State → State} {w : Word} {s : State} {ws : List Word}
    (he : s.cfg.encoding = .spec) (hacc : s.acc = ws) (hlen : itemLen m (zWords s) = (ws ++ [w]).length) :
    assemble m item w s = item (ws ++ [w]) { s with acc := [] } := by
  rw [assemble_of_spec he (congrArg (· ++ [w]) hacc) hlen.le, hlen, List.take_length]

/-- A one-word item runs where no item is begun, under the spec's encoding (R51, R106). -/
theorem assemble_of_one_word {m : Mode} {item : List Word → State → State} {w : Word} {s : State}
    (he : s.cfg.encoding = .spec) (hacc : s.acc = []) (hlen : itemLen m (zWords s) = 1) :
    assemble m item w s = item [w] s := by
  have hbegun : { s with acc := [] } = s := by rw [← hacc]
  rw [assemble_of_last he hacc hlen, hbegun, List.nil_append]

/-! ## Scale, and the items with two operands in a word -/

/-- The vector scale is in quarters on the VS60 and 1 on the VT11 (R107). -/
theorem scaled_eq (s : State) (d : Int) :
    scaled s d = if s.cfg.variant = .vs60 then Int.tdiv (d * (s.P.vscale.toNat : Int)) 4 else d := by
  cases hvar : s.cfg.variant <;> simp [scaled, hvar]

/-- A short move keeps Z (R116, R122, R123). -/
theorem shortMove_eq (m : Mode) (ws : List Word) (s : State) :
    shortMove m ws s =
      ⟨s.pos.x + scaled s (itemOperand s m ws 0), s.pos.y + scaled s (itemOperand s m ws 1), s.pos.z⟩ := by
  simp only [shortMove, addPt, Int.add_zero]

section
variable {m : Mode} {s : State} (he : s.cfg.encoding = .spec)
include he

/-- An SVECT or RELPOINT word moves by its two deltas (R61, R66, R116, R122). -/
theorem shortMove_of_word (hm : m = .svect ∨ m = .relpoint) (f : SvFields) :
    shortMove m [f.toWord] s =
      ⟨s.pos.x + scaled s (smag f.sx f.dx), s.pos.y + scaled s (smag f.sy f.dy), s.pos.z⟩ := by
  have hword : SvFields.ofWord (wordAt [f.toWord] 0) = f := f.ofWord_toWord
  rw [shortMove_eq, itemOperand_of_spec s m _ 0 he, itemOperand_of_spec s m _ 1 he]
  rcases hm with rfl | rfl <;> simp [specOperand, hword]

/-- The intensify bit of an SVECT or RELPOINT word (R61). -/
theorem itemLit_of_word (hm : m = .svect ∨ m = .relpoint) (f : SvFields) : itemLit s m [f.toWord] = f.i := by
  have hword : (SvFields.ofWord (wordAt [f.toWord] 0)).i = f.i := congrArg SvFields.i f.ofWord_toWord
  rw [itemLit_of_spec s m _ he]
  rcases hm with rfl | rfl <;> exact hword

end

/-- The fields of a BSVECT item (R64). -/
theorem bsvItemFields_ofItem_append (i sx sy : Bool) (dx dy : BitVec 2) :
    BsvItemFields.ofItem (BitVec.ofBool i ++ BitVec.ofBool sx ++ dx ++ BitVec.ofBool sy ++ dy) =
      ⟨i, sx, dx, sy, dy⟩ := by
  revert i sx sy dx dy
  decide

/-- A BSVECT item is the low seven bits of the word that it is read as. -/
theorem setWidth_bsvWord (b : BitVec 7) : (wordAt [bsvWord b] 0).setWidth 7 = b :=
  BitVec.setWidth_setWidth_of_le b (by decide)

/-- A BSVECT item of the spec's own format moves by its two deltas and draws the vector (R64, R66, R123). -/
theorem bsvItem_of_fields (f : BsvItemFields) {b : BitVec 7} {s : State} (he : s.cfg.encoding = .spec)
    (hb : BsvItemFields.ofItem b = f) :
    bsvItem b s =
      vecItem ⟨s.pos.x + scaled s (smag f.sx f.dx), s.pos.y + scaled s (smag f.sy f.dy), s.pos.z⟩ f.i s := by
  rw [bsvItem, shortMove_eq, itemOperand_of_spec s .bsvect _ 0 he, itemOperand_of_spec s .bsvect _ 1 he,
    itemLit_of_spec s .bsvect _ he]
  simp [specOperand, specLit, setWidth_bsvWord, hb]

/-- Settles O21: each short item is `shortMove`, then the vector or the point. -/
theorem shortItemsMoveByScaledDeltas : Obligations.ShortItemsMoveByScaledDeltas := by
  refine ⟨?word, fun i sx sy dx dy s he => ?bsvect, ?operands, scaled_eq⟩
  case word =>
    rintro f s _ he hacc rfl
    constructor
    · rw [exec_svectData, execSvectData, assemble_of_one_word he hacc rfl, svectItem, shortMove_of_word he (.inl rfl),
        itemLit_of_word he (.inl rfl)]
    · rw [exec_relpointData, execRelpointData, assemble_of_one_word he hacc rfl, relpointItem,
        shortMove_of_word he (.inr rfl), itemLit_of_word he (.inr rfl)]
  case bsvect => exact bsvItem_of_fields ⟨i, sx, dx, sy, dy⟩ he (bsvItemFields_ofItem_append i sx sy dx dy)
  case operands =>
    rintro m b ws s _ rfl
    rw [← shortMove_eq]
    refine ⟨?_, ?_, ?_⟩
    · rintro rfl
      rfl
    · rintro rfl
      rfl
    · rintro rfl rfl
      rfl

/-! ## LVECT -/

section
variable {s : State} (he : s.cfg.encoding = .spec)
include he

/-- Operand `n` of an LVECT item is the delta of its word `n` (R62, R65). -/
theorem itemOperand_lvect {ws : List Word} {n : Nat} {g : DeltaFields} (hw : wordAt ws n = g.toWord) :
    itemOperand s .lvect ws n = smag g.s g.m := by
  rw [itemOperand_of_spec s .lvect ws n he, specOperand, hw, deltaOf_delta]

/-- The intensify bit of an LVECT item is its first word's (R62). -/
theorem itemLit_lvect (g : DeltaFields) (ws : List Word) : itemLit s .lvect (g.toWord :: ws) = g.i := by
  rw [itemLit_of_spec s .lvect _ he]
  exact congrArg DeltaFields.i g.ofWord_toWord

/-- An LVECT item of two words (R117). -/
theorem lvectItem_of_words (hz : zWords s = false) (g f : DeltaFields) :
    lvectItem [g.toWord, f.toWord] s = vecItem
      ⟨s.pos.x + scaled s (smag g.s g.m), s.pos.y + scaled s (smag f.s f.m), s.pos.z⟩ g.i s := by
  have hx : itemOperand s .lvect [g.toWord, f.toWord] 0 = smag g.s g.m := itemOperand_lvect he rfl
  have hy : itemOperand s .lvect [g.toWord, f.toWord] 1 = smag f.s f.m := itemOperand_lvect he rfl
  simp [lvectItem, addPt, hz, hx, hy, itemLit_lvect he]

/-- An LVECT item of three words (R117). -/
theorem lvectItem_of_words_with_z (hz : zWords s = true) (g h f : DeltaFields) :
    lvectItem [g.toWord, h.toWord, f.toWord] s = vecItem
      ⟨s.pos.x + scaled s (smag g.s g.m), s.pos.y + scaled s (smag h.s h.m), s.pos.z + scaled s (smag f.s f.m)⟩
      g.i s := by
  have hx : itemOperand s .lvect [g.toWord, h.toWord, f.toWord] 0 = smag g.s g.m := itemOperand_lvect he rfl
  have hy : itemOperand s .lvect [g.toWord, h.toWord, f.toWord] 1 = smag h.s h.m := itemOperand_lvect he rfl
  have hzop : itemOperand s .lvect [g.toWord, h.toWord, f.toWord] 2 = smag f.s f.m := itemOperand_lvect he rfl
  simp [lvectItem, addPt, hz, hx, hy, hzop, itemLit_lvect he]

end

/-! ## Items of coordinate words -/

/-- The modes whose items are made of coordinate words (R63). -/
def coordModes : List Mode := [.point, .graphx, .graphy, .absvec]

theorem mem_coordModes {m : Mode} : m ∈ coordModes ↔ m = .point ∨ m = .graphx ∨ m = .graphy ∨ m = .absvec := by
  simp [coordModes]

section
variable {m : Mode} {s : State} (hm : m ∈ coordModes) (he : s.cfg.encoding = .spec)
include hm he

/-- On the VS60 operand `n` is the sign-magnitude value of word `n`, in an OFFSET item too (R63, R66). -/
theorem itemOperand_of_vs60 (hv : s.cfg.variant = .vs60) {ws : List Word} {n : Nat} {g : CoordFields}
    (hw : wordAt ws n = g.toWord) : itemOperand s m ws n = smag g.s g.m := by
  have hcoord : coordOf s (wordAt ws n) = smag g.s g.m := by rw [hw, coordOf_vs60 s g hv]
  have hoffset : offsetOf (wordAt ws n) = smag g.s g.m := by rw [hw, offsetOf_coord]
  rw [itemOperand_of_spec s m ws n he]
  rcases mem_coordModes.1 hm with rfl | rfl | rfl | rfl
  · rw [specOperand, hcoord, hoffset, ite_self]
  · exact hcoord
  · exact hcoord
  · exact hcoord

/-- On the VT11 operand `n` is the unsigned value of word `n` (R63, R66). -/
theorem itemOperand_of_vt11 (hv : s.cfg.variant = .vt11) {ws : List Word} {n : Nat} {g : CoordFields}
    (hw : wordAt ws n = g.toWord) : itemOperand s m ws n = (g.m.toNat : Int) := by
  have hcoord : coordOf s (wordAt ws n) = (g.m.toNat : Int) := by rw [hw, coordOf_vt11 s g hv]
  rw [itemOperand_of_spec s m ws n he]
  rcases mem_coordModes.1 hm with rfl | rfl | rfl | rfl
  · have hpoint : isOffsetItem s .point ws = false := by simp [isOffsetItem, isVs60, hv]
    simpa [specOperand, hpoint] using hcoord
  · exact hcoord
  · exact hcoord
  · exact hcoord

/-- The intensify bit of an item of coordinate words is its first word's (R63). -/
theorem itemLit_of_coord (g : CoordFields) (ws : List Word) : itemLit s m (g.toWord :: ws) = g.i := by
  have hword : (CoordFields.ofWord (wordAt (g.toWord :: ws) 0)).i = g.i := congrArg CoordFields.i g.ofWord_toWord
  rw [itemLit_of_spec s m _ he]
  rcases mem_coordModes.1 hm with rfl | rfl | rfl | rfl <;> exact hword

/-- Two coordinate words of the VS60 move X and Y and keep Z (R118, R125). -/
theorem absMove_of_words (hv : s.cfg.variant = .vs60) (hz : zWords s = false) (g f : CoordFields) :
    absMove m [g.toWord, f.toWord] s = ⟨smag g.s g.m, smag f.s f.m, s.pos.z⟩ := by
  have hx : itemOperand s m [g.toWord, f.toWord] 0 = smag g.s g.m := itemOperand_of_vs60 hm he hv rfl
  have hy : itemOperand s m [g.toWord, f.toWord] 1 = smag f.s f.m := itemOperand_of_vs60 hm he hv rfl
  simp [absMove, zOperandOr, hz, hx, hy]

/-- Three coordinate words move X, Y and Z (R118, R125). -/
theorem absMove_of_words_with_z (hz : zWords s = true) (g h f : CoordFields) :
    absMove m [g.toWord, h.toWord, f.toWord] s = ⟨smag g.s g.m, smag h.s h.m, smag f.s f.m⟩ := by
  have hv := isVs60_of_zWords s hz
  have hx : itemOperand s m [g.toWord, h.toWord, f.toWord] 0 = smag g.s g.m := itemOperand_of_vs60 hm he hv rfl
  have hy : itemOperand s m [g.toWord, h.toWord, f.toWord] 1 = smag h.s h.m := itemOperand_of_vs60 hm he hv rfl
  have hzop : itemOperand s m [g.toWord, h.toWord, f.toWord] 2 = smag f.s f.m := itemOperand_of_vs60 hm he hv rfl
  simp [absMove, zOperandOr, hz, hx, hy, hzop]

/-- Two coordinate words of the VT11 move X and Y and keep Z (R118). -/
theorem absMove_of_vt11 (hv : s.cfg.variant = .vt11) (g f : CoordFields) :
    absMove m [g.toWord, f.toWord] s = ⟨g.m.toNat, f.m.toNat, s.pos.z⟩ := by
  have hz : zWords s = false := by simp [zWords, isVs60, hv]
  have hx : itemOperand s m [g.toWord, f.toWord] 0 = (g.m.toNat : Int) := itemOperand_of_vt11 hm he hv rfl
  have hy : itemOperand s m [g.toWord, f.toWord] 1 = (f.m.toNat : Int) := itemOperand_of_vt11 hm he hv rfl
  simp [absMove, zOperandOr, hz, hx, hy]

end

/-- An ABSVEC item of coordinate words that move to `np` draws the vector (R125). -/
theorem absvecItem_of_words {s : State} (he : s.cfg.encoding = .spec) {g : CoordFields} {ws : List Word} {np : Pt3}
    (hmove : absMove .absvec (g.toWord :: ws) s = np) : absvecItem (g.toWord :: ws) s = vecItem np g.i s := by
  rw [absvecItem, hmove, itemLit_of_coord (by decide) he]

/-- Settles O22: an LVECT item moves by its scaled deltas, an ABSVEC item by `absMove`. -/
theorem longAndAbsoluteVectorsMoveAndDraw : Obligations.LongAndAbsoluteVectorsMoveAndDraw := by
  have habs : Mode.absvec ∈ coordModes := by decide
  refine ⟨?_, ?_, ?_, ?_, ?_⟩
  · intro g f s he hz hacc
    rw [exec_lvectData, execLvectData, assemble_of_last he hacc (by rw [hz]; rfl)]
    exact congrArg _ (lvectItem_of_words (s := { s with acc := [] }) he hz g f)
  · intro g h f s he hz hacc
    rw [exec_lvectData, execLvectData, assemble_of_last he hacc (by rw [hz]; rfl)]
    exact congrArg _ (lvectItem_of_words_with_z (s := { s with acc := [] }) he hz g h f)
  · intro g f s he hv hz hacc
    rw [exec_absvecData, execAbsvecData, assemble_of_last he hacc (by rw [hz]; rfl)]
    exact congrArg _ (absvecItem_of_words (s := { s with acc := [] }) he (absMove_of_words habs he hv hz g f))
  · intro g h f s he hz hacc
    rw [exec_absvecData, execAbsvecData, assemble_of_last he hacc (by rw [hz]; rfl)]
    exact congrArg _ (absvecItem_of_words (s := { s with acc := [] }) he (absMove_of_words_with_z habs he hz g h f))
  · rintro ws s _ _ rfl rfl
    exact ⟨rfl, rfl⟩

/-! ## POINT, OFFSET and the graph plots -/

/-- Bit 12 of the first word tells an OFFSET item from a POINT item, on the VS60 (R63, R118). -/
theorem isOffsetItem_of_coord {s : State} (he : s.cfg.encoding = .spec) (g : CoordFields) (ws : List Word) :
    isOffsetItem s .point (g.toWord :: ws) = (isVs60 s && g.off) := by
  have hword : (CoordFields.ofWord (wordAt (g.toWord :: ws) 0)).off = g.off := off_coord g
  rw [isOffsetItem_of_spec s .point _ he, hword]
  rfl

/-- A POINT item moves to its coordinates and plots the point (R118). -/
theorem pointModeItem_of_point {ws : List Word} {s : State} (h : isOffsetItem s .point ws = false) :
    pointModeItem ws s = pointItem (absMove .point ws s) (itemLit s .point ws) s := if_neg (ne_true_of_eq_false h)

/-- An OFFSET item loads what a POINT item would move to, the old offset where it has no Z word (R119). -/
theorem pointModeItem_of_offset {ws : List Word} {s : State} (h : isOffsetItem s .point ws = true) :
    pointModeItem ws s = { s with off := absMove .point ws { s with pos := s.off } } := if_pos h

section
variable {s : State} (he : s.cfg.encoding = .spec)
include he

/-- A POINT item of coordinate words that move to `np` (R118). -/
theorem pointModeItem_of_words {g : CoordFields} (hoff : (isVs60 s && g.off) = false) {ws : List Word} {np : Pt3}
    (hmove : absMove .point (g.toWord :: ws) s = np) :
    pointModeItem (g.toWord :: ws) s = pointItem np g.i s := by
  rw [pointModeItem_of_point ((isOffsetItem_of_coord he g ws).trans hoff), hmove, itemLit_of_coord (by decide) he]

/-- An OFFSET item of coordinate words, `q` what a POINT item would move to from the old offset (R119). -/
theorem pointModeItem_of_offset_words {g : CoordFields} (hoff : (isVs60 s && g.off) = true) {ws : List Word} {q : Pt3}
    (hmove : absMove .point (g.toWord :: ws) { s with pos := s.off } = q) :
    pointModeItem (g.toWord :: ws) s = { s with off := q } := by
  rw [pointModeItem_of_offset ((isOffsetItem_of_coord he g ws).trans hoff), hmove]

/-- The one operand of a GRAPHX or GRAPHY word (R120, R121). -/
theorem itemOperand_of_coord {m : Mode} (hm : m ∈ coordModes) (f : CoordFields) (v : Int)
    (hvt11 : s.cfg.variant = .vt11 → (f.m.toNat : Int) = v) (hvs60 : s.cfg.variant = .vs60 → smag f.s f.m = v) :
    itemOperand s m [f.toWord] 0 = v := by
  cases hvar : s.cfg.variant with
  | vt11 => rw [itemOperand_of_vt11 hm he hvar rfl, hvt11 hvar]
  | vs60 => rw [itemOperand_of_vs60 hm he hvar rfl, hvs60 hvar]

end

/-- Settles O23: a POINT item moves by `absMove`, a graph plot to the coordinate of its word. -/
theorem pointAndGraphplotItemsMoveAndPlot : Obligations.PointAndGraphplotItemsMoveAndPlot := by
  have hpoint : Mode.point ∈ coordModes := by decide
  have hgraphx : Mode.graphx ∈ coordModes := by decide
  have hgraphy : Mode.graphy ∈ coordModes := by decide
  refine ⟨?_, ?_, ?_, ?_, ?_⟩
  · intro g f s he hv hacc
    have hz : zWords s = false := by simp [zWords, isVs60, hv]
    rw [exec_pointData, execPointData, assemble_of_last he hacc (by rw [hz]; rfl)]
    exact congrArg _ (pointModeItem_of_words (s := { s with acc := [] }) he (by simp [isVs60, hv])
      (absMove_of_vt11 hpoint he hv g f))
  · intro g f s he hv hoff hz hacc
    rw [exec_pointData, execPointData, assemble_of_last he hacc (by rw [hz]; rfl)]
    exact congrArg _ (pointModeItem_of_words (s := { s with acc := [] }) he (by simp [hoff])
      (absMove_of_words hpoint he hv hz g f))
  · intro g h f s he hoff hz hacc
    rw [exec_pointData, execPointData, assemble_of_last he hacc (by rw [hz]; rfl)]
    exact congrArg _ (pointModeItem_of_words (s := { s with acc := [] }) he (by simp [hoff])
      (absMove_of_words_with_z hpoint he hz g h f))
  · intro f s v he hacc hv
    have hvt11 (hvar : s.cfg.variant = .vt11) : (f.m.toNat : Int) = v := by rw [hv, hvar]
    have hvs60 (hvar : s.cfg.variant = .vs60) : smag f.s f.m = v := by rw [hv, hvar]
    constructor
    · rw [exec_graphxData, execGraphxData, assemble_of_one_word he hacc rfl, graphxItem,
        itemOperand_of_coord he hgraphx f v hvt11 hvs60, itemLit_of_coord hgraphx he]
    · rw [exec_graphyData, execGraphyData, assemble_of_one_word he hacc rfl, graphyItem,
        itemOperand_of_coord he hgraphy f v hvt11 hvs60, itemLit_of_coord hgraphy he]
  · rintro ws s _ rfl
    exact ⟨pointModeItem_of_point, rfl, rfl⟩

/-- Settles O24: an OFFSET item loads the offsets as a POINT item would move. -/
theorem offsetItemsLoadTheOffsets : Obligations.OffsetItemsLoadTheOffsets := by
  have hpoint : Mode.point ∈ coordModes := by decide
  refine ⟨?_, ?_, ?_⟩
  · intro g f s he hv hoff hz hacc
    rw [exec_offsetData, execOffsetData, assemble_of_last he hacc (by rw [hz]; rfl)]
    exact congrArg _ (pointModeItem_of_offset_words (s := { s with acc := [] }) he (by simp [isVs60, hv, hoff])
      (absMove_of_words (s := { s with acc := [], pos := s.off }) hpoint he hv hz g f))
  · intro g h f s he hoff hz hacc
    have hv := isVs60_of_zWords s hz
    rw [exec_offsetData, execOffsetData, assemble_of_last he hacc (by rw [hz]; rfl)]
    exact congrArg _ (pointModeItem_of_offset_words (s := { s with acc := [] }) he (by simp [isVs60, hv, hoff])
      (absMove_of_words_with_z (s := { s with acc := [], pos := s.off }) hpoint he hz g h f))
  · rintro ws s _ rfl hoffset
    exact pointModeItem_of_offset hoffset

end Sys2Proof.Machine

/-! PROOFS. O34 to O37: what an item draws: the clip tags (R113, R114), the runs of pixels up to the first hit acted on
(R111), the items that are not lit (R108), and the pixels of a run (R109, R110, R134). -/

namespace Sys2Proof.Machine

/-! ## Segments -/

theorem edgesOn_iff (s : State) : edgesOn s = true ↔ s.cfg.variant = .vs60 ∧ s.P.edgeIntrEna = true := by
  simp [edgesOn, isVs60]

theorem displayed_eq (s : State) (p : Pt3) :
    displayed s p = ⟨p.x + s.off.x, p.y + s.off.y, if s.cfg.variant = .vs60 then p.z + s.off.z else 0⟩ := by
  simp [displayed, isVs60]

section
variable {p0 p1 q0 q1 : Pt3} {i : Bool} {s : State}

/-- An invisible segment draws nothing (R113). -/
theorem segment_of_invisible (h : clip (viewport s) p0 p1 = none) : segment p0 p1 i s = s := by
  simp [segment, h]

/-- A segment within the viewport is drawn whole (R113). -/
theorem segment_of_unclipped (h : clip (viewport s) p0 p1 = some ⟨.visibleUnclipped, q0, q1⟩) :
    segment p0 p1 i s = drawRun none false (pixelRun s (raster s.cfg q0 q1) i) s := by
  simp [segment, h]

/-- A segment that leaves the viewport ends with the exit edge event, where enabled (R113). -/
theorem segment_of_exit (h : clip (viewport s) p0 p1 = some ⟨.clippedExit, q0, q1⟩) :
    segment p0 p1 i s =
      drawRun (if edgesOn s then some q1 else none) false (pixelRun s (raster s.cfg q0 q1) i) s := by
  simp [segment, h]

/-- A segment that enters the viewport first raises the entry, where enabled, and keeps its run (R113). -/
theorem segment_of_entry (h : clip (viewport s) p0 p1 = some ⟨.clippedEntry, q0, q1⟩) :
    segment p0 p1 i s =
      if edgesOn s then { edgeEvent q0 false s with clipPend := some ⟨pixelRun s (raster s.cfg q0 q1) i, none⟩ }
      else drawRun none false (pixelRun s (raster s.cfg q0 q1) i) s := by
  simp [segment, h]

/-- A segment that enters and leaves the viewport keeps its exit with its run (R113). -/
theorem segment_of_both (h : clip (viewport s) p0 p1 = some ⟨.clippedBoth, q0, q1⟩) :
    segment p0 p1 i s =
      if edgesOn s then { edgeEvent q0 false s with clipPend := some ⟨pixelRun s (raster s.cfg q0 q1) i, some q1⟩ }
      else drawRun none false (pixelRun s (raster s.cfg q0 q1) i) s := by
  simp [segment, h]

end

/-- What a segment does: nothing, a run drawn, or an entry edge event with the run kept (R113). -/
theorem segment_cases (p0 p1 : Pt3) (i : Bool) (s : State) :
    segment p0 p1 i s = s ∨
    (∃ exit pts, segment p0 p1 i s = drawRun exit false (pixelRun s pts i) s) ∨
    ∃ q exit pts, segment p0 p1 i s = { edgeEvent q false s with clipPend := some ⟨pixelRun s pts i, exit⟩ } := by
  cases hclip : clip (viewport s) p0 p1 with
  | none => exact .inl (segment_of_invisible hclip)
  | some r =>
    obtain ⟨tag, q0, q1⟩ := r
    cases tag with
    | visibleUnclipped => exact .inr (.inl ⟨_, _, segment_of_unclipped hclip⟩)
    | clippedExit => exact .inr (.inl ⟨_, _, segment_of_exit hclip⟩)
    | clippedEntry =>
      rw [segment_of_entry hclip]
      split
      · exact .inr (.inr ⟨_, _, _, rfl⟩)
      · exact .inr (.inl ⟨_, _, rfl⟩)
    | clippedBoth =>
      rw [segment_of_both hclip]
      split
      · exact .inr (.inr ⟨_, _, _, rfl⟩)
      · exact .inr (.inl ⟨_, _, rfl⟩)

/-- The viewport is the visible area, but for a menu flag's other effect (R126, R127; log 19). -/
theorem viewport_of_no_menu {s : State}
    (h : s.cfg.menuEffect = .reference ∨ s.cfg.variant = .vt11 ∨ s.regs.menu = false) :
    viewport s = visibleArea s.cfg := by
  obtain h | h | h := h
  · exact viewport_of_reference s h
  · exact viewport_of_vt11 s h
  · unfold viewport
    split
    · rfl
    · rw [if_neg (by simp [h])]

/-- Which points lie in the visible area (R127). -/
theorem inViewport_visibleArea (c : Params) (p : Pt3) :
    inViewport (visibleArea c) p = true ↔ 0 ≤ p.x ∧ p.x ≤ c.xEdge ∧ 0 ≤ p.y ∧ p.y ≤ c.yEdge := by
  simp only [inViewport, Bool.and_eq_true, decide_eq_true_eq, and_assoc]
  rfl

/-- Settles O34: a vector item is `moveTo`, then the segment by its clip tag. -/
theorem vectorAndPointItemsFollowTheClipTag : Obligations.VectorAndPointItemsFollowTheClipTag := by
  refine ⟨?vector, ?point, edgesOn_iff, displayed_eq, fun s hmenu p => ?viewport⟩
  case vector =>
    rintro np _ _ i s _ rfl rfl rfl
    refine ⟨segment_of_invisible (s := moveTo np s), fun q0 q1 run hrun => ?_⟩
    rw [← pixelRun_moveTo np] at hrun
    subst hrun
    exact ⟨segment_of_unclipped (s := moveTo np s), segment_of_exit (s := moveTo np s),
      segment_of_entry (s := moveTo np s), segment_of_both (s := moveTo np s)⟩
  case point =>
    rintro np _ i s _ rfl rfl
    simp only [pointItem, pixelRun_moveTo, viewport_moveTo]
    rfl
  case viewport => rw [viewport_of_no_menu hmenu, inViewport_visibleArea]

/-! ## Runs -/

theorem drawn_lightAll (run : List Pixel) (s : State) : Drawn s (lightAll run s) := by
  induction run generalizing s with
  | nil => rfl
  | cons p rest ih => exact (drawn_illuminate p.x p.y p.i p.c s).trans (ih _)

section
variable {s t : State} (h : Drawn s t)
include h

/-- Drawing leaves the parameter set alone. -/
theorem Drawn.P_eq : t.P = s.P := by
  obtain ⟨v, rfl⟩ : ∃ v, t = drawnState s v := ⟨t, h⟩
  rfl

/-- Drawing moves neither the grid nor the pen, so it changes no pixel's light-pen test (R148, R149). -/
theorem Drawn.penHits_eq (p : Pixel) : penHits t p = penHits s p := by
  obtain ⟨v, rfl⟩ : ∃ v, t = drawnState s v := ⟨t, h⟩
  rfl

end

/-- Lighting a pixel answers its light-pen test (R148). -/
theorem illuminate_hit (p : Pixel) (s : State) : (illuminate p.x p.y p.i p.c s).2 = penHits s p := by
  unfold illuminate penHits
  cases onGrid s.ph p.x p.y <;> rfl

section
variable (exit : Option Pt3) {masked : Bool} {p : Pixel} {s : State}

/-- A pixel without a hit acted on is lit, and the run goes on (R111). -/
theorem drawRun_cons_of_miss (rest : List Pixel) (h : masked = true ∨ s.P.lpIntrEna = false ∨ penHits s p = false) :
    drawRun exit masked (p :: rest) s = drawRun exit masked rest (illuminate p.x p.y p.i p.c s).1 := by
  have hmiss : (penHits s p && !masked && s.P.lpIntrEna) = false := by
    rcases h with h | h | h <;> simp [h]
  simp [drawRun, illuminate_hit, hmiss]

/-- A hit acted on is reported, and the rest of the run kept (R111). -/
theorem drawRun_cons_of_hit (rest : List Pixel) (hena : s.P.lpIntrEna = true) (hhit : penHits s p = true) :
    drawRun exit false (p :: rest) s =
      { lightPenHit ⟨p.x, p.y, p.z⟩ (illuminate p.x p.y p.i p.c s).1 with lpCont := some ⟨rest, exit⟩ } := by
  simp [drawRun, illuminate_hit, hena, hhit]

/-- Pixels without a hit acted on are all lit before the rest of the run is drawn (R111). -/
theorem drawRun_append_of_miss (pre rest : List Pixel)
    (h : masked = true ∨ s.P.lpIntrEna = false ∨ ∀ q ∈ pre, penHits s q = false) :
    drawRun exit masked (pre ++ rest) s = drawRun exit masked rest (lightAll pre s) := by
  induction pre generalizing s with
  | nil => rfl
  | cons p pre ih =>
    have hdrawn := drawn_illuminate p.x p.y p.i p.c s
    rw [List.forall_mem_cons] at h
    rw [List.cons_append, drawRun_cons_of_miss exit _ (h.imp_right (Or.imp_right And.left)), ih]
    · rfl
    · rw [hdrawn.P_eq]
      exact h.imp_right (Or.imp_right fun hpre q hq => (hdrawn.penHits_eq q).trans (hpre.2 q hq))

end

theorem lightAll_append_singleton (pre : List Pixel) (p : Pixel) (s : State) :
    lightAll (pre ++ [p]) s = (illuminate p.x p.y p.i p.c (lightAll pre s)).1 := List.foldl_concat ..

/-- Settles O35: the pixels before the first hit acted on are lit, then the hit is taken or the run ends. -/
theorem runsStopAtTheFirstHitActedOn : Obligations.RunsStopAtTheFirstHitActedOn := by
  refine ⟨fun exit masked run s hmiss => ?_, fun exit pre post p s hena hpre hhit => ?_, fun _ _ => rfl,
    fun _ _ _ => ⟨rfl, rfl⟩⟩
  · have hwhole := drawRun_append_of_miss exit run [] hmiss
    rw [List.append_nil] at hwhole
    rw [hwhole]
    cases exit <;> rfl
  · have hdrawn := drawn_lightAll pre s
    rw [drawRun_append_of_miss exit pre _ (.inr (.inr hpre)),
      drawRun_cons_of_hit exit post (by rw [hdrawn.P_eq, hena]) ((hdrawn.penHits_eq p).trans hhit),
      lightAll_append_singleton]

/-! ## Items that are not lit -/

/-- An item that does not intensify, that blink puts out, or whose console is off is not lit (R108). -/
theorem lit_eq_false {s : State} {i : Bool}
    (h : i = false ∨ (s.P.blinkEna = true ∧ s.blinkOn = false) ∨ s.regs.cons0 = false) : lit s i = false := by
  obtain h | ⟨hena, hoff⟩ | h := h
  · simp [lit, h]
  · simp [lit, hena, hoff]
  · simp [lit, h]

theorem pixelRun_of_not_lit {s : State} {i : Bool} (h : lit s i = false) (pts : List Pt3) : pixelRun s pts i = [] :=
  if_neg (ne_true_of_eq_false h)

/-- From `s` to `t` nothing is lit and nothing is hit, and the position stays: the engine, the calls, the light pen's
flag and request and what is kept for it are unchanged. -/
def NothingLit (s t : State) : Prop :=
  t.ph = s.ph ∧ t.out = s.out ∧ t.pend.lightPenHit = s.pend.lightPenHit ∧ t.flags.lpFlag = s.flags.lpFlag ∧
    t.lpCont = s.lpCont ∧ t.pos = s.pos

theorem NothingLit.refl (s : State) : NothingLit s s := ⟨rfl, rfl, rfl, rfl, rfl, rfl⟩

theorem nothingLit_edgeEvent (q : Pt3) (b : Bool) (c : Option Cont) (s : State) :
    NothingLit s { edgeEvent q b s with clipPend := c } := ⟨rfl, rfl, rfl, rfl, rfl, rfl⟩

/-- A run of no pixels raises its exit edge event at most (R111). -/
theorem nothingLit_drawRun_nil (exit : Option Pt3) (masked : Bool) (s : State) :
    NothingLit s (drawRun exit masked [] s) := by
  cases exit with
  | none => exact .refl s
  | some q => exact nothingLit_edgeEvent q true s.clipPend s

section
variable {s : State} {i : Bool} (h : lit s i = false)
include h

theorem nothingLit_segment (p0 p1 : Pt3) : NothingLit s (segment p0 p1 i s) := by
  obtain hs | ⟨exit, pts, hs⟩ | ⟨q, exit, pts, hs⟩ := segment_cases p0 p1 i s <;> rw [hs]
  · exact .refl s
  · rw [pixelRun_of_not_lit h]
    exact nothingLit_drawRun_nil exit false s
  · exact nothingLit_edgeEvent q false _ s

theorem nothingLit_vecItem (np : Pt3) : NothingLit (moveTo np s) (vecItem np i s) :=
  nothingLit_segment (s := moveTo np s) h _ _

theorem nothingLit_pointItem (np : Pt3) : NothingLit (moveTo np s) (pointItem np i s) := by
  simp only [pointItem, pixelRun_moveTo, pixelRun_of_not_lit h]
  split
  · exact nothingLit_drawRun_nil none false _
  · exact .refl _

theorem nothingLit_arcItem (dc de : Pt3) : NothingLit (moveTo (addPt s.pos de) s) (arcItem dc de i s) := by
  rw [arcItem_eq, pixelRun_of_not_lit h]
  exact nothingLit_drawRun_nil none false _

end

/-- Settles O36: an item not lit draws the empty run. -/
theorem unlitItemsLightNothing : Obligations.UnlitItemsLightNothing := by
  intro i s hunlit np dc de t ht
  have hlit := lit_eq_false hunlit
  obtain rfl | rfl | ⟨rfl, rfl⟩ := ht
  · exact nothingLit_vecItem hlit np
  · exact nothingLit_pointItem hlit np
  · exact nothingLit_arcItem hlit dc de

/-! ## The pixels of a run -/

/-- The line-style counter is the point's place in the run, from where the counter starts (R110). -/
theorem dashedPixels_eq (s : State) (k : Nat) (pts : List Pt3) :
    dashedPixels s k pts =
      ((pts.zipIdx k).filter fun q => dashOn s.cfg s.P.lineType q.2).map fun q => pixelAt s q.1 := by
  induction pts generalizing k with
  | nil => rfl
  | cons p rest ih => cases hdash : dashOn s.cfg s.P.lineType k <;> simp [dashedPixels, hdash, ih]

/-- A pixel has its point's place, the intensity at its Z and the set colour (R109, R110). -/
theorem pixelAt_eq (s : State) (p : Pt3) :
    pixelAt s p = ⟨p.x, p.y, p.z,
      if s.cfg.variant = .vs60 ∧ s.P.depthCue = true then depthCue s.cfg s.P.intensity p.z else s.P.intensity,
      s.regs.color⟩ := by
  simp [pixelAt, intensityAt, isVs60]

/-- The default depth cue clamps to an intensity (R109). -/
theorem depthCue_toNat {c : Params} (h : c.depthCue = .reference) (i : BitVec 3) (z : Int) :
    ((depthCue c i z).toNat : Int) = min 7 (max 0 ((i.toNat : Int) + Int.fdiv z 128)) := by
  rw [Int.fdiv_eq_ediv_of_nonneg z (by decide)]
  simp only [depthCue, h, BitVec.toNat_ofNat]
  omega

/-- The line-style counter is five bits wide (R110). -/
theorem dashOn_add_period (c : Params) (t : LineType) (k : Nat) : dashOn c t (k + 32) = dashOn c t k := by
  rw [dashOn, Nat.add_mod_right, dashOn]

/-- The default dash patterns over one period of the counter (R134). -/
theorem dashOn_defaultParams : ∀ k : Nat, k < 32 →
    dashOn defaultParams .solid k = true ∧ dashOn defaultParams .longDash k = decide (k < 24) ∧
    dashOn defaultParams .shortDash k = decide (k % 8 < 4) ∧
    dashOn defaultParams .dotDash k = (decide (k % 16 < 8) || decide (k % 16 = 12)) := by
  decide

/-- Settles O37: the run of a lit primitive by `dashedPixels_eq`, and the default patterns by evaluation. -/
theorem dashedRunsFollowTheCounter : Obligations.DashedRunsFollowTheCounter := by
  refine ⟨fun _ _ => rfl, fun s pts hlit => ?_, pixelAt_eq, depthCue_toNat rfl, dashOn_add_period,
    dashOn_defaultParams⟩
  rw [pixelRun, if_pos hlit, dashedPixels_eq]

end Sys2Proof.Machine

/-! PROOFS. O38: the clipper. Each edge constraint narrows the span of parameters to exactly those that meet it (R130),
so the last span's ends are the least and the greatest shown parameter; the region codes only sort the segments (R128,
R129), and rounding an exact point of the viewport stays in it (R131). -/

namespace Sys2Proof.Machine

/-! ## Exact parameters -/

section
variable {a b c : Frac}

theorem fracLe_iff : fracLe a b = true ↔ a.n * b.d ≤ b.n * a.d := by simp [fracLe]

theorem fracLe_total : fracLe a b = true ∨ fracLe b a = true := by
  simp only [fracLe_iff]
  exact Int.le_total _ _

theorem fracLe_trans (ha : 0 < a.d) (hb : 0 < b.d) (hc : 0 < c.d) (hab : fracLe a b = true)
    (hbc : fracLe b c = true) : fracLe a c = true := by
  rw [fracLe_iff] at *
  have h : (a.n * c.d) * b.d ≤ (c.n * a.d) * b.d := by
    calc a.n * c.d * b.d = a.n * b.d * c.d := by ring
      _ ≤ b.n * a.d * c.d := by gcongr
      _ = b.n * c.d * a.d := by ring
      _ ≤ c.n * b.d * a.d := by gcongr
      _ = c.n * a.d * b.d := by ring
  exact Int.le_of_mul_le_mul_right h hb

theorem fracMax_pos (ha : 0 < a.d) (hb : 0 < b.d) : 0 < (fracMax a b).d := by
  unfold fracMax
  split <;> assumption

theorem fracMin_pos (ha : 0 < a.d) (hb : 0 < b.d) : 0 < (fracMin a b).d := by
  unfold fracMin
  split <;> assumption

theorem fracMax_le_iff (ha : 0 < a.d) (hb : 0 < b.d) (hc : 0 < c.d) :
    fracLe (fracMax a b) c = true ↔ fracLe a c = true ∧ fracLe b c = true := by
  unfold fracMax
  split
  next hab => exact ⟨fun h => ⟨fracLe_trans ha hb hc hab h, h⟩, And.right⟩
  next hab => exact ⟨fun h => ⟨h, fracLe_trans hb ha hc (fracLe_total.resolve_left hab) h⟩, And.left⟩

theorem le_fracMin_iff (ha : 0 < a.d) (hb : 0 < b.d) (hc : 0 < c.d) :
    fracLe c (fracMin a b) = true ↔ fracLe c a = true ∧ fracLe c b = true := by
  unfold fracMin
  split
  next hab => exact ⟨fun h => ⟨h, fracLe_trans hc ha hb h hab⟩, And.left⟩
  next hab => exact ⟨fun h => ⟨fracLe_trans hc hb ha h (fracLe_total.resolve_left hab), h⟩, And.right⟩

end

/-! ## Spans of parameters -/

/-- Whether the clipper's span holds exactly the parameters with the property `P`; no span, where there is none. -/
def Spans (P : Frac → Prop) : Option (Frac × Frac) → Prop
  | none => ∀ f : Frac, 0 < f.d → ¬ P f
  | some t => 0 < t.1.d ∧ 0 < t.2.d ∧
      ∀ f : Frac, 0 < f.d → ((fracLe t.1 f = true ∧ fracLe f t.2 = true) ↔ P f)

theorem Spans.congr {P Q : Frac → Prop} {o : Option (Frac × Frac)} (h : Spans P o)
    (hpq : ∀ f, 0 < f.d → (P f ↔ Q f)) : Spans Q o := by
  cases o with
  | none => exact fun f hf hq => h f hf ((hpq f hf).2 hq)
  | some t =>
    obtain ⟨hE, hL, hspan⟩ := h
    exact ⟨hE, hL, fun f hf => (hspan f hf).trans (hpq f hf)⟩

theorem spans_unit : Spans (fun f => 0 ≤ f.n ∧ f.n ≤ f.d) (some (⟨0, 1⟩, ⟨1, 1⟩)) := by
  refine ⟨by decide, by decide, fun f _ => ?_⟩
  simp [fracLe_iff]

/-- An edge constraint `p·t ≤ q` narrows the span to the parameters that meet it (R130). -/
theorem clipConstraint_spans {P : Frac → Prop} {t : Frac × Frac} (p q : Int) (h : Spans P (some t)) :
    Spans (fun f => P f ∧ p * f.n ≤ q * f.d) (clipConstraint p q t) := by
  obtain ⟨hE, hL, hspan⟩ := h
  unfold clipConstraint
  split_ifs with hneg hpos hq
  · have hd : 0 < (⟨-q, -p⟩ : Frac).d := Int.neg_pos_of_neg hneg
    refine ⟨fracMax_pos hE hd, hL, fun f hf => ?_⟩
    have hbound : fracLe ⟨-q, -p⟩ f = true ↔ p * f.n ≤ q * f.d := by
      rw [fracLe_iff]
      constructor <;> intro h <;> linarith
    simp only [fracMax_le_iff hE hd hf, ← hspan f hf, hbound, and_right_comm]
  · have hd : 0 < (⟨q, p⟩ : Frac).d := hpos
    refine ⟨hE, fracMin_pos hL hd, fun f hf => ?_⟩
    have hbound : fracLe f ⟨q, p⟩ = true ↔ p * f.n ≤ q * f.d := by rw [fracLe_iff, Int.mul_comm]
    simp only [le_fracMin_iff hL hd hf, ← hspan f hf, hbound, and_assoc]
  · intro f hf hmeets
    obtain rfl : p = 0 := by omega
    have hlt : q * f.d < 0 := Int.mul_neg_of_neg_of_pos hq hf
    linarith [hmeets.2]
  · refine ⟨hE, hL, fun f hf => ?_⟩
    obtain rfl : p = 0 := by omega
    have hle : 0 ≤ q * f.d := Int.mul_nonneg (by omega) hf.le
    simp [hspan f hf, hle]

theorem Spans.bind {P : Frac → Prop} {o : Option (Frac × Frac)} (h : Spans P o) (p q : Int) :
    Spans (fun f => P f ∧ p * f.n ≤ q * f.d) (o.bind (clipConstraint p q)) := by
  cases o with
  | none => exact fun f hf hmeets => h f hf hmeets.1
  | some t => exact clipConstraint_spans p q h

/-! ## The shown part of a segment -/

/-- Whether the exact point at parameter `f` of the segment lies in the viewport (R130). -/
def ShownAt (v : Viewport) (p0 p1 : Pt3) (f : Frac) : Prop :=
  0 < f.d ∧ 0 ≤ f.n ∧ f.n ≤ f.d ∧
    f.d * v.xMin ≤ f.d * p0.x + f.n * (p1.x - p0.x) ∧ f.d * p0.x + f.n * (p1.x - p0.x) ≤ f.d * v.xMax ∧
    f.d * v.yMin ≤ f.d * p0.y + f.n * (p1.y - p0.y) ∧ f.d * p0.y + f.n * (p1.y - p0.y) ≤ f.d * v.yMax

/-- The span of parameters after the four edges. -/
def clipSpan (v : Viewport) (p0 p1 : Pt3) : Option (Frac × Frac) :=
  ((((some (⟨0, 1⟩, ⟨1, 1⟩)).bind (clipConstraint (-(p1.x - p0.x)) (p0.x - v.xMin))).bind
    (clipConstraint (p1.x - p0.x) (v.xMax - p0.x))).bind
    (clipConstraint (-(p1.y - p0.y)) (p0.y - v.yMin))).bind
    (clipConstraint (p1.y - p0.y) (v.yMax - p0.y))

section
variable {v : Viewport} {p0 p1 : Pt3}

theorem clipParams_eq : clipParams v p0 p1 = (clipSpan v p0 p1).filter fun t => fracLe t.1 t.2 := by
  simp only [clipParams, clipSpan, Option.bind_assoc, Option.bind_some]
  split
  next h => rw [h, Option.filter_none]
  next t h => rw [h, Option.filter_some]

theorem clipSpan_spans (v : Viewport) (p0 p1 : Pt3) : Spans (ShownAt v p0 p1) (clipSpan v p0 p1) := by
  refine ((((spans_unit.bind _ _).bind _ _).bind _ _).bind _ _).congr fun f hf => ?_
  constructor
  · rintro ⟨⟨⟨⟨⟨h0, h1⟩, hxMin⟩, hxMax⟩, hyMin⟩, hyMax⟩
    refine ⟨hf, h0, h1, ?_, ?_, ?_, ?_⟩ <;> linarith
  · rintro ⟨-, h0, h1, hxMin, hxMax, hyMin, hyMax⟩
    refine ⟨⟨⟨⟨⟨h0, h1⟩, ?_⟩, ?_⟩, ?_⟩, ?_⟩ <;> linarith

/-- `Params` answers none for a segment that misses the viewport (R130). -/
theorem not_shownAt_of_clipParams_none (h : clipParams v p0 p1 = none) (f : Frac) : ¬ ShownAt v p0 p1 f := by
  intro hf
  have hspan := clipSpan_spans v p0 p1
  rw [clipParams_eq, Option.filter_eq_none_iff] at h
  cases hs : clipSpan v p0 p1 with
  | none =>
    rw [hs] at hspan
    exact hspan f hf.1 hf
  | some t =>
    rw [hs] at hspan
    obtain ⟨hE, hL, hiff⟩ := hspan
    obtain ⟨hEf, hfL⟩ := (hiff f hf.1).2 hf
    exact h t hs (fracLe_trans hE hf.1 hL hEf hfL)

/-- `Params` answers the least and the greatest parameter whose point is shown (R130). -/
theorem shownAt_of_clipParams {t : Frac × Frac} (h : clipParams v p0 p1 = some t) :
    ShownAt v p0 p1 t.1 ∧ ShownAt v p0 p1 t.2 ∧
      ∀ f, ShownAt v p0 p1 f → fracLe t.1 f = true ∧ fracLe f t.2 = true := by
  have hspan := clipSpan_spans v p0 p1
  rw [clipParams_eq, Option.filter_eq_some_iff] at h
  obtain ⟨hs, hle⟩ := h
  rw [hs] at hspan
  obtain ⟨hE, hL, hiff⟩ := hspan
  exact ⟨(hiff _ hE).1 ⟨fracLe_iff.2 le_rfl, hle⟩, (hiff _ hL).1 ⟨hle, fracLe_iff.2 le_rfl⟩,
    fun f hf => (hiff f hf.1).2 hf⟩

/-! ## Region codes and rounding -/

theorem inViewport_iff (v : Viewport) (p : Pt3) :
    inViewport v p = true ↔ v.xMin ≤ p.x ∧ p.x ≤ v.xMax ∧ v.yMin ≤ p.y ∧ p.y ≤ v.yMax := by
  simp only [inViewport, Bool.and_eq_true, decide_eq_true_eq, and_assoc]

/-- The bits of a region code (R128). -/
theorem regionCode_bits (v : Viewport) (p : Pt3) :
    (regionCode v p).getLsbD 0 = decide (p.x < v.xMin) ∧ (regionCode v p).getLsbD 1 = decide (v.xMax < p.x) ∧
    (regionCode v p).getLsbD 2 = decide (p.y < v.yMin) ∧ (regionCode v p).getLsbD 3 = decide (v.yMax < p.y) := by
  unfold regionCode
  refine ⟨?_, ?_, ?_, ?_⟩ <;> split_ifs <;> simp [*]

theorem bits_and_eq_zero_iff : ∀ a b : BitVec 4, a &&& b = 0 ↔
    ¬ (a.getLsbD 0 = true ∧ b.getLsbD 0 = true) ∧ ¬ (a.getLsbD 1 = true ∧ b.getLsbD 1 = true) ∧
    ¬ (a.getLsbD 2 = true ∧ b.getLsbD 2 = true) ∧ ¬ (a.getLsbD 3 = true ∧ b.getLsbD 3 = true) := by
  decide

/-- Two region codes share no bit where no edge has both points outside it (R128, R129). -/
theorem regionCode_and_eq_zero_iff (v : Viewport) (p q : Pt3) : regionCode v p &&& regionCode v q = 0 ↔
    ¬ (p.x < v.xMin ∧ q.x < v.xMin) ∧ ¬ (v.xMax < p.x ∧ v.xMax < q.x) ∧
    ¬ (p.y < v.yMin ∧ q.y < v.yMin) ∧ ¬ (v.yMax < p.y ∧ v.yMax < q.y) := by
  obtain ⟨hl, hr, hb, ha⟩ := regionCode_bits v p
  obtain ⟨hl', hr', hb', ha'⟩ := regionCode_bits v q
  rw [bits_and_eq_zero_iff, hl, hr, hb, ha, hl', hr', hb', ha']
  simp only [decide_eq_true_eq]

theorem regionCode_eq_zero_iff (v : Viewport) (p : Pt3) : regionCode v p = 0 ↔ inViewport v p = true := by
  rw [← BitVec.and_self (x := regionCode v p), regionCode_and_eq_zero_iff, inViewport_iff]
  simp only [and_self, Int.not_lt]

/-- A point between two points on the same side of a bound stays on that side. -/
theorem mix_lt {a b hi n d : Int} (hd : 0 < d) (h0 : 0 ≤ n) (h1 : n ≤ d) (ha : a < hi) (hb : b < hi) :
    d * a + n * (b - a) < d * hi := by
  have hfirst : (d - n) * a ≤ (d - n) * (hi - 1) := Int.mul_le_mul_of_nonneg_left (by omega) (by omega)
  have hsecond : n * b ≤ n * (hi - 1) := Int.mul_le_mul_of_nonneg_left (by omega) h0
  linarith

theorem lt_mix {a b lo n d : Int} (hd : 0 < d) (h0 : 0 ≤ n) (h1 : n ≤ d) (ha : lo < a) (hb : lo < b) :
    d * lo < d * a + n * (b - a) := by
  have hneg := mix_lt hd h0 h1 (Int.neg_lt_neg ha) (Int.neg_lt_neg hb)
  linarith

/-- End points that share an outside region hide the whole segment (R129). -/
theorem ShownAt.regionCode_and {f : Frac} (h : ShownAt v p0 p1 f) : regionCode v p0 &&& regionCode v p1 = 0 := by
  obtain ⟨hd, h0, h1, hxMin, hxMax, hyMin, hyMax⟩ := h
  rw [regionCode_and_eq_zero_iff]
  exact ⟨fun ⟨ha, hb⟩ => (mix_lt hd h0 h1 ha hb).not_ge hxMin, fun ⟨ha, hb⟩ => (lt_mix hd h0 h1 ha hb).not_ge hxMax,
    fun ⟨ha, hb⟩ => (mix_lt hd h0 h1 ha hb).not_ge hyMin, fun ⟨ha, hb⟩ => (lt_mix hd h0 h1 ha hb).not_ge hyMax⟩

/-- A rounded offset keeps a bound that the exact one keeps. -/
theorem le_add_tdiv {lo x m d : Int} (hd : 0 < d) (h : d * lo ≤ d * x + m) : lo ≤ x + Int.tdiv m d := by
  have : lo - x ≤ Int.tdiv m d := Int.le_tdiv_of_mul_le hd (by linarith)
  omega

theorem add_tdiv_le {hi x m d : Int} (hd : 0 < d) (h : d * x + m ≤ d * hi) : x + Int.tdiv m d ≤ hi := by
  have hle : Int.tdiv m d ≤ Int.tdiv ((hi - x) * d) d := Int.tdiv_le_tdiv hd (by linarith)
  rw [Int.mul_tdiv_cancel _ hd.ne'] at hle
  omega

/-- A shown point stays in the viewport when it is rounded (R131). -/
theorem ShownAt.inViewport_clipAt {f : Frac} (h : ShownAt v p0 p1 f) : inViewport v (clipAt p0 p1 f) = true := by
  obtain ⟨hd, -, -, hxMin, hxMax, hyMin, hyMax⟩ := h
  exact (inViewport_iff _ _).2
    ⟨le_add_tdiv hd hxMin, add_tdiv_le hd hxMax, le_add_tdiv hd hyMin, add_tdiv_le hd hyMax⟩

/-! ## The clipper's answers -/

theorem clip_of_inside (h0 : inViewport v p0 = true) (h1 : inViewport v p1 = true) :
    clip v p0 p1 = some ⟨.visibleUnclipped, p0, p1⟩ := by
  rw [← regionCode_eq_zero_iff] at h0 h1
  simp only [clip, h0, h1, and_self, if_true]

/-- The tag of a cut segment, by which end point is inside (R129). -/
def cutTag (v : Viewport) (p0 p1 : Pt3) : ClipTag :=
  if inViewport v p0 then .clippedExit else if inViewport v p1 then .clippedEntry else .clippedBoth

/-- A segment with an outside end point: rejecting by the region codes answers what `Params` answers (R129). -/
theorem clip_of_outside (h : ¬ (inViewport v p0 = true ∧ inViewport v p1 = true)) :
    clip v p0 p1 = (clipParams v p0 p1).map fun t =>
      ⟨cutTag v p0 p1, if inViewport v p0 then p0 else clipAt p0 p1 t.1,
        if inViewport v p1 then p1 else clipAt p0 p1 t.2⟩ := by
  simp only [clip, regionCode_eq_zero_iff, if_neg h, cutTag]
  cases hparams : clipParams v p0 p1 with
  | none => simp
  | some t =>
    have hcodes := (shownAt_of_clipParams hparams).1.regionCode_and
    simp only [hcodes, ne_eq, not_true_eq_false, if_false, Option.map_some]
    split_ifs <;> rfl

theorem shownAt_zero (h : inViewport v p0 = true) : ShownAt v p0 p1 ⟨0, 1⟩ := by
  simpa [ShownAt, inViewport_iff] using h

theorem shownAt_one (h : inViewport v p1 = true) : ShownAt v p0 p1 ⟨1, 1⟩ := by
  simpa [ShownAt, inViewport_iff] using h

/-- A segment is visible exactly where one of its points is shown (R129). -/
theorem clip_ne_none_iff : clip v p0 p1 ≠ none ↔ ∃ f, ShownAt v p0 p1 f := by
  by_cases h : inViewport v p0 = true ∧ inViewport v p1 = true
  · simpa [clip_of_inside h.1 h.2] using ⟨_, shownAt_zero h.1⟩
  · rw [clip_of_outside h]
    cases hparams : clipParams v p0 p1 with
    | none => simpa using not_shownAt_of_clipParams_none hparams
    | some t => simpa using ⟨t.1, (shownAt_of_clipParams hparams).1⟩

/-- What a visible result says of its two end points and its tag (R129, R130, R131). -/
structure CutWell (v : Viewport) (p0 p1 : Pt3) (r : Clipped) : Prop where
  shown0 : inViewport v r.q0 = true
  shown1 : inViewport v r.q1 = true
  kept0 : inViewport v p0 = true → r.q0 = p0
  kept1 : inViewport v p1 = true → r.q1 = p1
  entry : inViewport v p0 = false →
    ∃ f, ShownAt v p0 p1 f ∧ (∀ g, ShownAt v p0 p1 g → fracLe f g = true) ∧ r.q0 = clipAt p0 p1 f
  exit : inViewport v p1 = false →
    ∃ f, ShownAt v p0 p1 f ∧ (∀ g, ShownAt v p0 p1 g → fracLe g f = true) ∧ r.q1 = clipAt p0 p1 f
  tag0 : inViewport v p0 = false ↔ (r.tag = .clippedEntry ∨ r.tag = .clippedBoth)
  tag1 : inViewport v p1 = false ↔ (r.tag = .clippedExit ∨ r.tag = .clippedBoth)

theorem clip_cutWell {r : Clipped} (hr : clip v p0 p1 = some r) : CutWell v p0 p1 r := by
  by_cases h : inViewport v p0 = true ∧ inViewport v p1 = true
  · rw [clip_of_inside h.1 h.2] at hr
    cases hr
    constructor <;> simp [h]
  · rw [clip_of_outside h, Option.map_eq_some_iff] at hr
    obtain ⟨t, hparams, rfl⟩ := hr
    obtain ⟨hfirst, hlast, hbetween⟩ := shownAt_of_clipParams hparams
    constructor
    case shown0 =>
      dsimp only
      split_ifs with h0
      exacts [h0, hfirst.inViewport_clipAt]
    case shown1 =>
      dsimp only
      split_ifs with h1
      exacts [h1, hlast.inViewport_clipAt]
    case kept0 => exact fun h0 => if_pos h0
    case kept1 => exact fun h1 => if_pos h1
    case entry => exact fun h0 => ⟨t.1, hfirst, fun g hg => (hbetween g hg).1, by simp [h0]⟩
    case exit => exact fun h1 => ⟨t.2, hlast, fun g hg => (hbetween g hg).2, by simp [h1]⟩
    case tag0 => cases h0 : inViewport v p0 <;> cases h1 : inViewport v p1 <;> simp [cutTag, h0, h1]
    case tag1 =>
      cases h0 : inViewport v p0 with
      | false => cases h1 : inViewport v p1 <;> simp [cutTag, h0, h1]
      | true =>
        have h1 : inViewport v p1 = false := by simpa [h0] using h
        simp [cutTag, h0, h1]

end

/-- Settles O38: `clip_of_inside`, `clip_ne_none_iff` and `clip_cutWell`, with `ShownAt` written out. -/
theorem clippedEndPointsLieInTheViewport : Obligations.ClippedEndPointsLieInTheViewport := by
  rintro v p0 p1 inside pointAt rfl rfl
  refine ⟨clip_of_inside, clip_ne_none_iff.trans ⟨fun ⟨f, hf⟩ => ⟨f.n, f.d, hf⟩, fun ⟨n, d, h⟩ => ⟨⟨n, d⟩, h⟩⟩,
    fun r hr => ?_⟩
  have hcut := clip_cutWell hr
  refine ⟨hcut.shown0, hcut.shown1, hcut.kept0, hcut.kept1, fun h => ?_, fun h => ?_, hcut.tag0, hcut.tag1⟩
  · obtain ⟨f, hf, hleast, hq⟩ := hcut.entry h
    exact ⟨f.n, f.d, hf, fun m e hm => fracLe_iff.1 (hleast ⟨m, e⟩ hm), hq⟩
  · obtain ⟨f, hf, hgreatest, hq⟩ := hcut.exit h
    exact ⟨f.n, f.d, hf, fun m e hm => fracLe_iff.1 (hgreatest ⟨m, e⟩ hm), hq⟩

end Sys2Proof.Machine

/-! PROOFS. O39: the rasterizer. On either axis the reference line of R132 stands at the midpoint quotient of its step,
which on the major axis is the step itself; so the properties of R133 are facts about that quotient, said once for both
axes. A replacement is used only where it was tested for them (log 7). -/

namespace Sys2Proof.Machine

/-! ## The midpoint quotient -/

/-- The steps made by point `k` of `n` along an axis of length `a`, ties away from the start (R132). -/
def midStep (n a k : Nat) : Nat := (2 * k * a + n) / (2 * n)

section
variable {n a k : Nat}

theorem midStep_zero (hn : 0 < n) : midStep n a 0 = 0 := Nat.div_eq_of_lt (by omega)

/-- On the major axis, point `k` has made `k` steps. -/
theorem midStep_major (hn : 0 < n) : midStep n n k = k := by
  have hsplit : 2 * k * n + n = n + 2 * n * k := by ring
  rw [midStep, hsplit, Nat.add_mul_div_left _ _ (by omega), Nat.div_eq_of_lt (by omega), Nat.zero_add]

theorem midStep_last (hn : 0 < n) : midStep n a n = a := by
  calc midStep n a n = midStep n n a := by rw [midStep, midStep, Nat.mul_right_comm]
    _ = a := midStep_major hn

theorem midStep_le (hn : 0 < n) (hk : k ≤ n) : midStep n a k ≤ a := by
  calc midStep n a k ≤ midStep n a n := by unfold midStep; gcongr
    _ = a := midStep_last hn

theorem midStep_succ (hn : 0 < n) (ha : a ≤ n) :
    midStep n a (k + 1) = midStep n a k ∨ midStep n a (k + 1) = midStep n a k + 1 := by
  have hlow : midStep n a k ≤ midStep n a (k + 1) := by
    unfold midStep
    gcongr
    omega
  have hhigh : midStep n a (k + 1) ≤ midStep n a k + 1 := by
    unfold midStep
    rw [← Nat.add_div_right _ (by omega : 0 < 2 * n)]
    exact Nat.div_le_div_right (by linarith)
  omega

end

/-! ## One axis of the reference line -/

/-- Point `k` of `n` on the axis from `a` to `b` (R132). -/
def axisPoint (n : Nat) (a b : Int) (k : Nat) : Int := a + (b - a).sign * (midStep n (b - a).natAbs k : Int)

section
variable {n k : Nat} {a b : Int}

theorem axisPoint_zero (hn : 0 < n) : axisPoint n a b 0 = a := by simp [axisPoint, midStep_zero hn]

theorem axisPoint_last (hn : 0 < n) : axisPoint n a b n = b := by
  rw [axisPoint, midStep_last hn, Int.sign_mul_natAbs]
  omega

theorem axisPoint_major (hn : 0 < n) (h : (b - a).natAbs = n) : axisPoint n a b k = a + (b - a).sign * (k : Int) := by
  rw [axisPoint, h, midStep_major hn]

theorem axisPoint_step_major (hn : 0 < n) (h : (b - a).natAbs = n) :
    axisPoint n a b (k + 1) - axisPoint n a b k = (b - a).sign := by
  rw [axisPoint_major hn h, axisPoint_major hn h]
  push_cast
  ring

theorem axisPoint_step_minor (hn : 0 < n) (h : (b - a).natAbs ≤ n) :
    axisPoint n a b (k + 1) = axisPoint n a b k ∨
      axisPoint n a b (k + 1) - axisPoint n a b k = (b - a).sign := by
  unfold axisPoint
  rcases midStep_succ (k := k) hn h with hsame | hnext
  · exact .inl (by rw [hsame])
  · refine .inr ?_
    rw [hnext]
    push_cast
    ring

theorem between_iff {v : Int} : between a b v = true ↔ min a b ≤ v ∧ v ≤ max a b := by simp [between]

theorem between_axisPoint (hn : 0 < n) (hk : k ≤ n) : between a b (axisPoint n a b k) = true := by
  have hle : midStep n (b - a).natAbs k ≤ (b - a).natAbs := midStep_le hn hk
  rw [between_iff, axisPoint]
  rcases Int.lt_trichotomy (b - a) 0 with hneg | hzero | hpos
  · rw [Int.sign_eq_neg_one_of_neg hneg]
    omega
  · rw [hzero, Int.sign_zero]
    omega
  · rw [Int.sign_eq_one_of_pos hpos]
    omega

/-- Z along the line, rounded toward its start, stays between its ends (R132, R133). -/
theorem between_add_tdiv (hn : 0 < n) (hk : k ≤ n) : between a b (a + Int.tdiv ((b - a) * (k : Int)) n) = true := by
  have hn' : (0 : Int) < n := by omega
  rw [between_iff]
  rcases Int.le_total a b with hle | hle
  · have h0 : 0 ≤ (b - a) * (k : Int) := Int.mul_nonneg (by omega) (by omega)
    have h1 : (b - a) * (k : Int) ≤ (b - a) * n := Int.mul_le_mul_of_nonneg_left (by omega) (by omega)
    rw [min_eq_left hle, max_eq_right hle]
    exact ⟨le_add_tdiv hn' (by linarith), add_tdiv_le hn' (by linarith)⟩
  · have h0 : (b - a) * (k : Int) ≤ 0 := Int.mul_nonpos_of_nonpos_of_nonneg (by omega) (by omega)
    have h1 : (b - a) * (n : Int) ≤ (b - a) * k := Int.mul_le_mul_of_nonpos_left (by omega) (by omega)
    rw [min_eq_right hle, max_eq_left hle]
    exact ⟨le_add_tdiv hn' (by linarith), add_tdiv_le hn' (by linarith)⟩

end

/-! ## The properties of R133 -/

/-- What R133 asks of the points of a line; a zero-length line has no last step to end at (log 7). -/
structure RasterWell (q0 q1 : Pt3) (l : List Pt3) : Prop where
  length : l.length = lineSteps q0 q1 + 1
  head : l.head? = some q0
  last : 0 < lineSteps q0 q1 → l.getLast? = some q1
  steps : l.IsChain fun a b => rasterStepOk q0 q1 a b = true
  box : ∀ p ∈ l, between q0.x q1.x p.x = true ∧ between q0.y q1.y p.y = true ∧ between q0.z q1.z p.z = true

section
variable {q0 q1 : Pt3}

theorem rasterStepsOk_iff : ∀ l : List Pt3,
    rasterStepsOk q0 q1 l = true ↔ l.IsChain fun a b => rasterStepOk q0 q1 a b = true
  | [] => by simp [rasterStepsOk]
  | [a] => by simp [rasterStepsOk]
  | a :: b :: t => by simp [rasterStepsOk, rasterStepsOk_iff (b :: t)]

theorem rasterStepOk_iff (a b : Pt3) : rasterStepOk q0 q1 a b = true ↔
    ((q1.y - q0.y).natAbs ≤ (q1.x - q0.x).natAbs →
      b.x - a.x = (q1.x - q0.x).sign ∧ (b.y = a.y ∨ b.y - a.y = (q1.y - q0.y).sign)) ∧
    ((q1.x - q0.x).natAbs < (q1.y - q0.y).natAbs →
      b.y - a.y = (q1.y - q0.y).sign ∧ (b.x = a.x ∨ b.x - a.x = (q1.x - q0.x).sign)) := by
  unfold rasterStepOk
  split_ifs with hx
  · simp [hx, Nat.not_lt.2 hx]
  · simp [hx, Nat.not_le.1 hx]

theorem rasterWell_singleton (h : lineSteps q0 q1 = 0) : RasterWell q0 q1 [q0] where
  length := by simp [h]
  head := rfl
  last hpos := by omega
  steps := .singleton _
  box := by simp [between]

/-- The model's test of a replacement is R133's list of properties. -/
theorem rasterWell_of_rasterOk {l : List Pt3} (h : rasterOk q0 q1 l = true) : RasterWell q0 q1 l := by
  unfold rasterOk at h
  split_ifs at h with hzero
  · rw [decide_eq_true_eq] at h
    exact h ▸ rasterWell_singleton hzero
  · simp only [Bool.and_eq_true, decide_eq_true_eq, List.all_eq_true, and_assoc] at h
    obtain ⟨hlength, hhead, hlast, hsteps, hbox⟩ := h
    exact ⟨hlength, hhead, fun _ => hlast, (rasterStepsOk_iff l).1 hsteps, hbox⟩

/-! ## The reference line -/

theorem rasterPoint_eq (h : 0 < lineSteps q0 q1) (k : Nat) : rasterPoint q0 q1 k =
    ⟨axisPoint (lineSteps q0 q1) q0.x q1.x k, axisPoint (lineSteps q0 q1) q0.y q1.y k,
      q0.z + Int.tdiv ((q1.z - q0.z) * (k : Int)) (lineSteps q0 q1)⟩ := by
  dsimp only [rasterPoint]
  split_ifs with hx
  · rw [axisPoint_major h (b := q1.x) (by unfold lineSteps; omega)]
    rfl
  · rw [axisPoint_major h (b := q1.y) (by unfold lineSteps; omega)]
    rfl

theorem rasterPoint_zero (h : 0 < lineSteps q0 q1) : rasterPoint q0 q1 0 = q0 := by
  simp [rasterPoint_eq h, axisPoint_zero h]

theorem rasterPoint_last (h : 0 < lineSteps q0 q1) : rasterPoint q0 q1 (lineSteps q0 q1) = q1 := by
  have hn : (lineSteps q0 q1 : Int) ≠ 0 := by omega
  simp [rasterPoint_eq h, axisPoint_last h, Int.mul_tdiv_cancel _ hn]

theorem rasterPoint_step (h : 0 < lineSteps q0 q1) (k : Nat) :
    rasterStepOk q0 q1 (rasterPoint q0 q1 k) (rasterPoint q0 q1 (k + 1)) = true := by
  rw [rasterStepOk_iff, rasterPoint_eq h, rasterPoint_eq h]
  exact ⟨fun hx => ⟨axisPoint_step_major h (by unfold lineSteps; omega),
      axisPoint_step_minor h (by unfold lineSteps; omega)⟩,
    fun hy => ⟨axisPoint_step_major h (by unfold lineSteps; omega),
      axisPoint_step_minor h (by unfold lineSteps; omega)⟩⟩

theorem rasterPoint_box (h : 0 < lineSteps q0 q1) {k : Nat} (hk : k ≤ lineSteps q0 q1) :
    between q0.x q1.x (rasterPoint q0 q1 k).x = true ∧ between q0.y q1.y (rasterPoint q0 q1 k).y = true ∧
      between q0.z q1.z (rasterPoint q0 q1 k).z = true := by
  rw [rasterPoint_eq h]
  exact ⟨between_axisPoint h hk, between_axisPoint h hk, between_add_tdiv h hk⟩

theorem rasterReference_eq (h : 0 < lineSteps q0 q1) :
    rasterReference q0 q1 = (List.range (lineSteps q0 q1 + 1)).map (rasterPoint q0 q1) := if_neg h.ne'

theorem rasterWell_reference (q0 q1 : Pt3) : RasterWell q0 q1 (rasterReference q0 q1) := by
  rcases Nat.eq_zero_or_pos (lineSteps q0 q1) with hzero | hpos
  · rw [rasterReference, if_pos hzero]
    exact rasterWell_singleton hzero
  · rw [rasterReference_eq hpos]
    constructor
    case length => simp
    case head => simp [List.head?_range, rasterPoint_zero hpos]
    case last => simp [List.range_succ, rasterPoint_last hpos]
    case steps =>
      rw [List.isChain_iff_getElem]
      intro k hk
      simpa using rasterPoint_step hpos k
    case box =>
      intro p hp
      obtain ⟨k, hk, rfl⟩ := List.mem_map.1 hp
      exact rasterPoint_box hpos (Nat.le_of_lt_succ (List.mem_range.1 hk))

theorem raster_well (c : Params) (q0 q1 : Pt3) : RasterWell q0 q1 (raster c q0 q1) := by
  unfold raster
  split
  next => exact rasterWell_reference q0 q1
  next n _ =>
    dsimp only
    split_ifs with hok
    exacts [rasterWell_of_rasterOk hok, rasterWell_reference q0 q1]

/-- Point `k` of the line under the reference rasterizer (R132). -/
theorem raster_reference_getElem? {c : Params} (hc : c.rasterize = .reference) (h : 0 < lineSteps q0 q1) {k : Nat}
    (hk : k ≤ lineSteps q0 q1) : (raster c q0 q1)[k]? = some (rasterPoint q0 q1 k) := by
  simp [raster, hc, rasterReference_eq h, Nat.lt_succ_of_le hk]

end

/-- Settles O39: R133 by `raster_well`, R132 by `raster_reference_getElem?`. -/
theorem rasterLinesKeepTheirProperties : Obligations.RasterLinesKeepTheirProperties := by
  rintro c q0 q1 _ rfl
  have hwell := raster_well c q0 q1
  refine ⟨hwell.length, hwell.head, hwell.last, fun k a b ha hb => ?_, fun p hp => ?_, fun hc hpos k hk => ?_⟩
  · obtain ⟨hk, rfl⟩ := List.getElem?_eq_some_iff.1 ha
    obtain ⟨hk', rfl⟩ := List.getElem?_eq_some_iff.1 hb
    exact (rasterStepOk_iff _ _).1 (hwell.steps.getElem k hk')
  · simpa only [between_iff, and_assoc] using hwell.box p hp
  · rw [raster_reference_getElem? hc hpos hk]
    simp [rasterPoint, lineSteps]

end Sys2Proof.Machine

/-! PROOFS. O40: arcs. A list of vertices is used only where it was tested for R135's properties, and the one chord that
stands in for another list has them (log 8); the points of an arc are its chords' points by their numbers (R136). -/

namespace Sys2Proof.Machine

/-! ## The vertices -/

theorem withinRadius_iff {n d : Int} : withinRadius n d = true ↔ |d| ≤ 1 ∨ (|d| - 1) ^ 2 ≤ n := by
  simp only [withinRadius, Bool.or_eq_true, decide_eq_true_eq, Int.natCast_natAbs, sq]
  rw [Int.abs_eq_natAbs]
  norm_cast

/-- A coordinate of a point at distance `√n` at most from the centre. -/
theorem withinRadius_of_sq_le {n d : Int} (h : d ^ 2 ≤ n) : withinRadius n d = true := by
  rw [withinRadius_iff]
  by_cases hd : |d| ≤ 1
  · exact .inl hd
  · have hless : (|d| - 1) ^ 2 ≤ |d| ^ 2 := pow_le_pow_left₀ (by omega) (by omega) 2
    exact .inr (hless.trans (by rwa [sq_abs]))

/-- The squared larger radius of an arc (R135). -/
def arcRadiusSq (p0 pc p1 : Pt3) : Int :=
  max ((p0.x - pc.x) ^ 2 + (p0.y - pc.y) ^ 2) ((p1.x - pc.x) ^ 2 + (p1.y - pc.y) ^ 2)

section
variable {p0 pc p1 : Pt3}

/-- The model's test of a vertex list is R135's list of properties. -/
theorem arcOk_iff {arcMax : Nat} {vs : List Pt3} : arcOk arcMax p0 pc p1 vs = true ↔
    vs.head? = some p0 ∧ vs.getLast? = some p1 ∧ 2 ≤ vs.length ∧ vs.length ≤ arcMax + 1 ∧
    ∀ q ∈ vs, withinRadius (arcRadiusSq p0 pc p1) (q.x - pc.x) = true ∧
      withinRadius (arcRadiusSq p0 pc p1) (q.y - pc.y) = true := by
  simp only [arcOk, arcRadiusSq, ← sq, Bool.and_eq_true, decide_eq_true_eq, List.all_eq_true, and_assoc]

/-- One chord has the properties of R135. -/
theorem arcOk_oneChord {arcMax : Nat} (h : 1 ≤ arcMax) : arcOk arcMax p0 pc p1 [p0, p1] = true := by
  rw [arcOk_iff]
  refine ⟨rfl, rfl, le_rfl, by simpa using h, fun q hq => ?_⟩
  have hradius : (q.x - pc.x) ^ 2 + (q.y - pc.y) ^ 2 ≤ arcRadiusSq p0 pc p1 := by
    rcases List.mem_pair.1 hq with rfl | rfl
    exacts [le_max_left _ _, le_max_right _ _]
  exact ⟨withinRadius_of_sq_le (by linarith [sq_nonneg (q.y - pc.y)]),
    withinRadius_of_sq_le (by linarith [sq_nonneg (q.x - pc.x)])⟩

theorem arcVertices_ok {c : Params} (h : 1 ≤ c.arcMax) : arcOk c.arcMax p0 pc p1 (arcVertices c p0 pc p1) = true := by
  dsimp only [arcVertices]
  split_ifs with hok
  exacts [hok, arcOk_oneChord h]

end

/-! ## The points -/

section
variable {c : Params} {v : Viewport} {a b : Pt3}

theorem chordPoints_of_invisible {first : Bool} (h : clip v a b = none) : chordPoints c v first a b = [] := by
  rw [chordPoints, h]

/-- Chord `k` of an arc, the first point dropped where chord `k − 1` has drawn it (R136). -/
theorem chordPoints_of_visible {r : Clipped} (h : clip v a b = some r) (k : Nat) :
    chordPoints c v (decide (k = 0)) a b =
      if 0 < k ∧ (r.tag = .visibleUnclipped ∨ r.tag = .clippedExit) then (raster c r.q0 r.q1).drop 1
      else raster c r.q0 r.q1 := by
  simp [chordPoints, h, Nat.pos_iff_ne_zero]

/-- The points of the chords from number `k` on, chord by chord (R136). -/
theorem chordsPoints_eq_flatMap (c : Params) (v : Viewport) : ∀ (vs : List Pt3) (k : Nat),
    chordsPoints c v (decide (k = 0)) vs =
      ((vs.zip vs.tail).zipIdx k).flatMap fun q => chordPoints c v (decide (q.2 = 0)) q.1.1 q.1.2
  | [], _ => rfl
  | [_], _ => rfl
  | a :: b :: t, k => by
    have hrest := chordsPoints_eq_flatMap c v (b :: t) (k + 1)
    simp only [Nat.add_eq_zero_iff, one_ne_zero, and_false, decide_false] at hrest
    simp [chordsPoints, hrest]

end

/-- Settles O40: the vertices by `arcVertices_ok`, the points by `chordsPoints_eq_flatMap`. -/
theorem arcVerticesKeepTheirProperties : Obligations.ArcVerticesKeepTheirProperties := by
  refine ⟨?vertices, ?points⟩
  case vertices =>
    rintro c p0 pc p1 _ hmax rfl
    obtain ⟨hhead, hlast, htwo, hlength, hradius⟩ := arcOk_iff.1 (arcVertices_ok (p0 := p0) (pc := pc) (p1 := p1) hmax)
    exact ⟨hhead, hlast, htwo, hlength, fun q hq =>
      ⟨withinRadius_iff.1 (hradius q hq).1, withinRadius_iff.1 (hradius q hq).2⟩⟩
  case points =>
    rintro c v p0 pc p1 _ rfl
    refine (chordsPoints_eq_flatMap c v _ 0).trans (congrArg (List.flatMap · _) (funext fun ⟨⟨a, b⟩, k⟩ => ?_))
    cases hclip : clip v a b with
    | none => exact chordPoints_of_invisible hclip
    | some r => exact chordPoints_of_visible hclip k

end Sys2Proof.Machine

/-! PROOFS. O29, O30, O31 and O33: what a character code does, faulted or not (R137, R139, R140, R162), where a glyph is
drawn and of which points it is made (R141, R144, R145), and the light pen's view of it (R142). -/

namespace Sys2Proof.Machine

/-! ## The metrics and the moves -/

theorem rotated_iff (s : State) :
    rotated s = true ↔ s.cfg.variant = .vs60 ∧ s.cfg.renderer = .stroke ∧ s.P.rotate = true := by
  simp [rotated, strokes, isVs60, and_assoc]

/-- Twice the character scale, by the variant and the renderer (R140). -/
theorem charScale2_eq (s : State) :
    charScale2 s =
      if s.cfg.variant = .vs60 ∧ s.cfg.renderer = .stroke then (s.P.csIndex.toNat : Int) + 1 else 2 := by
  simp [charScale2, strokes, isVs60]

/-- Half of an even number is no free value (R140). -/
theorem halfMetric_two_mul (a : Int) : halfMetric (2 * a) = a := by
  rw [halfMetric, if_pos (Int.mul_emod_right 2 a), Int.mul_ediv_cancel_left a (by decide)]

/-- The advance of a default cell is 7 for each half of the scale (R140). -/
theorem charAdvance_of_default {s : State} (hcw : s.cfg.cw = 14) : charAdvance s = 7 * charScale2 s := by
  rw [charAdvance, hcw, ← halfMetric_two_mul (7 * charScale2 s), ← Int.mul_assoc]
  rfl

/-- The line height of a default cell is 12 for each half of the scale (R140). -/
theorem lineHeight_of_default {s : State} (hlh : s.cfg.lh = 24) : lineHeight s = 12 * charScale2 s := by
  rw [lineHeight, hlh, ← halfMetric_two_mul (12 * charScale2 s), ← Int.mul_assoc]
  rfl

/-- The position moved by `a` along the line and by `l` down the page, both turned where characters are rotated
(R139). -/
def movedOnPage (s : State) (a l : Int) : Pt3 :=
  if rotated s then ⟨s.pos.x + l, s.pos.y + a, s.pos.z⟩ else ⟨s.pos.x + a, s.pos.y - l, s.pos.z⟩

theorem advanced_eq (s : State) : advanced s = movedOnPage s (charAdvance s) 0 := by
  simp [advanced, movedOnPage, addPt]

theorem backspaced_eq (s : State) : backspaced s = movedOnPage s (-charAdvance s) 0 := by
  simp [backspaced, movedOnPage, addPt]

theorem lineFed_eq (s : State) : lineFed s = movedOnPage s 0 (lineHeight s) := by
  simp [lineFed, movedOnPage, addPt, Int.sub_eq_add_neg]

theorem movedOnPage_along (s : State) (a : Int) :
    movedOnPage s a 0 =
      if rotated s then ⟨s.pos.x, s.pos.y + a, s.pos.z⟩ else ⟨s.pos.x + a, s.pos.y, s.pos.z⟩ := by
  simp [movedOnPage]

theorem movedOnPage_down (s : State) (l : Int) :
    movedOnPage s 0 l =
      if rotated s then ⟨s.pos.x + l, s.pos.y, s.pos.z⟩ else ⟨s.pos.x, s.pos.y - l, s.pos.z⟩ := by
  simp [movedOnPage]

/-! ## The codes -/

/-- The codes that move or shift and never print: BS, LF, CR, SO and SI (R137). -/
abbrev controlCodes : List (BitVec 7) := [0o010, 0o012, 0o015, 0o016, 0o017]

theorem mem_controlCodes {b : BitVec 7} :
    b ∈ controlCodes ↔ b = 0o010 ∨ b = 0o012 ∨ b = 0o015 ∨ b = 0o016 ∨ b = 0o017 := by
  simp only [List.mem_cons, List.not_mem_nil, or_false]

theorem not_mem_controlCodes {b : BitVec 7} :
    b ∉ controlCodes ↔ b ≠ 0o010 ∧ b ≠ 0o012 ∧ b ≠ 0o015 ∧ b ≠ 0o016 ∧ b ≠ 0o017 := by
  simp only [mem_controlCodes, not_or, ne_eq]

theorem toNat_lt_of_mem_controlCodes : ∀ b ∈ controlCodes, b.toNat < 0o040 := by decide

section
variable (draw : Bool) {b : BitVec 7} (s : State)

theorem charCode_backspace : charCode draw 0o010 s = moveTo (backspaced s) s := rfl

theorem charCode_lineFeed : charCode draw 0o012 s = moveTo (lineFed s) s := rfl

theorem charCode_return : charCode draw 0o015 s = moveTo (returned s) s := rfl

theorem charCode_shiftOut : charCode draw 0o016 s = { s with regs := { s.regs with so := true } } := rfl

theorem charCode_shiftIn : charCode draw 0o017 s = { s with regs := { s.regs with so := false } } := rfl

theorem charCode_of_not_control (h : b ∉ controlCodes) :
    charCode draw b s =
      if b.toNat < 0o040 then (if s.regs.so then printCode draw .alt b s else s) else printCode draw .main b s := by
  obtain ⟨hbs, hlf, hcr, hso, hsi⟩ := not_mem_controlCodes.1 h
  rw [charCode, if_neg hbs, if_neg hlf, if_neg hcr, if_neg hso, if_neg hsi]

/-- A code below 040 that is no control code prints only while shifted out (R137). -/
theorem charCode_of_low (hlow : b.toNat < 0o040) (hb : b ∉ controlCodes) :
    charCode draw b s = if s.regs.so then printCode draw .alt b s else s := by
  rw [charCode_of_not_control draw s hb, if_pos hlow]

/-- A code from 040 on prints from the main set (R137). -/
theorem charCode_of_high (h : 0o040 ≤ b.toNat) : charCode draw b s = printCode draw .main b s := by
  rw [charCode_of_not_control draw s (fun hb => absurd (toNat_lt_of_mem_controlCodes b hb) (Nat.not_lt.2 h)),
    if_neg (Nat.not_lt.2 h)]

end

/-- A character that neither terminates nor is faulted does what its code says (R137). -/
theorem charItem_of_code {b : BitVec 7} {s : State} (hterm : terminates b s = false)
    (hfault : charFaultHolds b s = false) : charItem b s = (charCode true b s, false) := by
  simp [charItem, hterm, hfault]

/-- A faulted character that does not terminate (R162). -/
theorem charItem_of_fault {b : BitVec 7} {s : State} (hterm : terminates b s = false)
    (hfault : charFaultHolds b s = true) : charItem b s = (charFaultItem b s, false) := by
  simp [charItem, hterm, hfault]

/-- Settles O29: the code's equation, and the default metrics by the scale. -/
theorem characterCodesMoveShiftOrPrint : Obligations.CharacterCodesMoveShiftOrPrint := by
  refine ⟨fun b s hfault hnot => ?codes, fun s hcw hlh => ?metrics⟩
  case codes =>
    rw [charItem_of_code (terminates_of_not hnot) hfault]
    refine ⟨?bs, ?lf, ?cr, ?so, ?si, fun hlow hb => ?low, fun hhigh => ?high⟩
    case bs =>
      rintro _ rfl rfl
      rw [charCode_backspace, backspaced_eq, movedOnPage_along]
      rfl
    case lf =>
      rintro _ rfl rfl
      rw [charCode_lineFeed, lineFed_eq, movedOnPage_down]
      rfl
    case cr =>
      rintro _ rfl rfl
      rfl
    case so =>
      rintro rfl
      rw [charCode_shiftOut]
    case si =>
      rintro rfl
      rw [charCode_shiftIn]
    case low =>
      rw [charCode_of_low true s hlow hb]
      rfl
    case high =>
      rw [charCode_of_high true s hhigh]
      rfl
  case metrics =>
    rw [charAdvance_of_default hcw, lineHeight_of_default hlh, charScale2_eq]
    refine ⟨fun hstroke => ?_, fun hdot => ?_⟩
    · rw [if_pos hstroke]
      exact ⟨rfl, rfl⟩
    · have hnot : ¬ (s.cfg.variant = .vs60 ∧ s.cfg.renderer = .stroke) := by
        rintro ⟨hvar, hrend⟩
        rw [hvar, hrend] at hdot
        simp at hdot
      rw [if_neg hnot]
      exact ⟨rfl, rfl⟩

/-! ## The glyph at the viewport's boundary -/

/-- A crossing raises the edge event where it is enabled and exactly one origin is on-screen (R141). -/
theorem charCrossing_of_event {o o' : Pt3} {s : State} (hena : edgesOn s = true)
    (hne : inViewport (viewport s) o ≠ inViewport (viewport s) o') :
    charCrossing o o' s =
      edgeEvent (if inViewport (viewport s) o then o else o') (inViewport (viewport s) o) s := by
  simp [charCrossing, hena, hne]

/-- Otherwise a crossing changes nothing (R141). -/
theorem charCrossing_of_no_event {o o' : Pt3} {s : State}
    (h : edgesOn s = false ∨ inViewport (viewport s) o = inViewport (viewport s) o') : charCrossing o o' s = s := by
  rcases h with h | h <;> simp [charCrossing, h]

/-- A crossing changes nothing or raises the edge event (R141). -/
theorem charCrossing_cases (o o' : Pt3) (s : State) :
    charCrossing o o' s = s ∨
      (edgesOn s = true ∧ inViewport (viewport s) o ≠ inViewport (viewport s) o' ∧
        charCrossing o o' s =
          edgeEvent (if inViewport (viewport s) o then o else o') (inViewport (viewport s) o) s) := by
  cases hena : edgesOn s with
  | false => exact .inl (charCrossing_of_no_event (.inl hena))
  | true =>
    by_cases hcross : inViewport (viewport s) o = inViewport (viewport s) o'
    · exact .inl (charCrossing_of_no_event (.inr hcross))
    · exact .inr ⟨rfl, hcross, charCrossing_of_event hena hcross⟩

section
variable {set : CharSet} {b : BitVec 7} {s : State}

/-- A glyph whose two origins are on-screen is drawn after the advance (R141). -/
theorem glyph_of_inside (ho : inViewport (viewport s) (displayed s s.pos) = true)
    (ho' : inViewport (viewport s) (displayed s (advanced s)) = true) :
    glyph set b s = glyphDraw (glyphPoints s set b (displayed s s.pos)) (moveTo (advanced s) s) := by
  simp [glyph, ho, ho']

/-- Any other glyph only crosses the boundary, if it does (R141). -/
theorem glyph_of_not_inside (h : inViewport (viewport s) (displayed s s.pos) = false ∨
      inViewport (viewport s) (displayed s (advanced s)) = false) :
    glyph set b s = charCrossing (displayed s s.pos) (displayed s (advanced s)) (moveTo (advanced s) s) := by
  rcases h with h | h <;> simp [glyph, h]

end

/-! ## The points of a glyph -/

/-- `rnd(a/2)` is half the magnitude, rounded up, with the sign of `a` (R11). -/
theorem rndHalf_eq (a : Int) : rndHalf a = a.sign * (((a.natAbs + 1) / 2 : Nat) : Int) := by
  unfold rndHalf
  rcases Int.lt_trichotomy a 0 with h | rfl | h
  · rw [Int.sign_eq_neg_one_of_neg h, show a + -1 = -((a.natAbs + 1 : Nat) : Int) by omega, Int.neg_tdiv,
      Int.neg_one_mul]
    rfl
  · rfl
  · rw [Int.sign_eq_one_of_pos h, Int.one_mul, Int.tdiv_eq_ediv_of_nonneg (by omega)]
    omega

/-- The pen starts at the origin (R145). -/
theorem penPoint_zero (s : State) (o : Pt3) : penPoint s o 0 0 = o := by
  simp [penPoint, rndHalf]

/-- The pen's place after the first `k` strokes of `g`, from `(U, V)` (R145). -/
def penAfter (s : State) (o : Pt3) (U V : Int) (g : List Stroke) (k : Nat) : Pt3 :=
  penPoint s o (U + ((g.take k).map Stroke.du).sum) (V + ((g.take k).map Stroke.dv).sum)

theorem penAfter_zero (s : State) (o : Pt3) (U V : Int) (g : List Stroke) :
    penAfter s o U V g 0 = penPoint s o U V := by
  simp [penAfter]

theorem penAfter_cons_succ (s : State) (o : Pt3) (U V : Int) (a : Stroke) (g : List Stroke) (k : Nat) :
    penAfter s o U V (a :: g) (k + 1) = penAfter s o (U + a.du) (V + a.dv) g k := by
  simp [penAfter, Int.add_assoc]

/-- The points of strokes are those of the visible ones' lines, from the pen's place before each to the one after
(R145). -/
theorem strokePoints_eq_flatMap (s : State) (o : Pt3) (U V : Int) (g : List Stroke) :
    strokePoints s o U V (penPoint s o U V) g =
      g.zipIdx.flatMap fun q =>
        if q.1.vis then raster s.cfg (penAfter s o U V g q.2) (penAfter s o U V g (q.2 + 1)) else [] := by
  induction g generalizing U V with
  | nil => rfl
  | cons a g ih =>
    simp only [strokePoints, ih, List.zipIdx_cons', List.flatMap_cons, List.flatMap_map, Prod.map_fst, Prod.map_snd,
      id_eq, penAfter_zero, penAfter_cons_succ]

/-- The stroke renderer's pen, its scale, its rounding and its turn written out (R145). -/
theorem penPoint_of_stroke {s : State} (h : s.cfg.renderer = .stroke) (o : Pt3) (U V u v scale2 : Int)
    (hscale : scale2 = if s.cfg.variant = .vs60 then (s.P.csIndex.toNat : Int) + 1 else 2)
    (hu : u = rndHalf (scale2 * (U + if s.P.italics then Int.tdiv V 4 else 0))) (hv : v = rndHalf (scale2 * V)) :
    penPoint s o U V =
      if s.cfg.variant = .vs60 ∧ s.P.rotate = true then ⟨o.x - v, o.y + u, o.z⟩ else ⟨o.x + u, o.y + v, o.z⟩ := by
  have hturn : rotated s = true ↔ s.cfg.variant = .vs60 ∧ s.P.rotate = true := by simp [rotated_iff, h]
  have hs : charScale2 s = scale2 := by simp [charScale2_eq, h, hscale]
  subst hu hv
  simp only [penPoint, hs, hturn]

/-- Settles O30: the branches of `glyph`, and the points by `strokePoints_eq_flatMap`. -/
theorem glyphsAdvanceAndAreDrawnWholeOrNot : Obligations.GlyphsAdvanceAndAreDrawnWholeOrNot := by
  refine ⟨?boundary, ?dots, ?strokes⟩
  case boundary =>
    rintro set b s _ np _ _ _ rfl hnp rfl rfl rfl
    obtain rfl : advanced s = np := by rw [hnp, advanced_eq, movedOnPage_along]
    refine ⟨fun ⟨ho, ho'⟩ => glyph_of_inside ho ho', fun ⟨ho, ho'⟩ hena => ?leaves, fun ⟨ho, ho'⟩ hena => ?enters,
      fun hne hena => ?disabled, fun ⟨ho, ho'⟩ => ?outside⟩
    case leaves =>
      rw [glyph_of_not_inside (.inr ho'), charCrossing_of_event (s := moveTo (advanced s) s) hena (by simp [ho, ho']),
        viewport_moveTo, ho]
      rfl
    case enters =>
      rw [glyph_of_not_inside (.inl ho), charCrossing_of_event (s := moveTo (advanced s) s) hena (by simp [ho, ho']),
        viewport_moveTo, ho]
      rfl
    case disabled =>
      have hnot : inViewport (viewport s) (displayed s s.pos) = false ∨
          inViewport (viewport s) (displayed s (advanced s)) = false := by
        cases ho : inViewport (viewport s) (displayed s s.pos) with
        | false => exact .inl rfl
        | true => exact .inr (Bool.eq_false_iff.2 fun ho' => hne (ho.trans ho'.symm))
      rw [glyph_of_not_inside hnot, charCrossing_of_no_event (s := moveTo (advanced s) s) (.inl hena)]
      rfl
    case outside =>
      rw [glyph_of_not_inside (.inl ho), charCrossing_of_no_event (s := moveTo (advanced s) s)
        (.inr (ho.trans ho'.symm))]
      rfl
  case dots =>
    rintro set b s o _ _ hdot rfl rfl
    rw [glyphPoints, hdot]
    rfl
  case strokes =>
    rintro set b s o _ scale2 _ _ _ _ _ pen hstroke rfl hscale rfl rfl rfl rfl rfl hpen
    have hpens : pen = penAfter s o 0 0 (strokeGlyph s.cfg set b) := by
      funext k
      rw [penAfter, penPoint_of_stroke hstroke o _ _ _ _ scale2 hscale rfl rfl]
      simp only [hpen, rndHalf_eq, Int.zero_add]
    have hstart : strokePoints s o 0 0 (penPoint s o 0 0) (strokeGlyph s.cfg set b) = glyphPoints s set b o := by
      rw [penPoint_zero, glyphPoints, hstroke]
    rw [hpens, ← hstart, strokePoints_eq_flatMap]

/-! ## The light pen -/

/-- Whether a pixel's hit is acted on (R142). -/
def hitActedOn (s : State) (p : Pixel) : Bool := penHits s p && s.P.lpIntrEna

/-- A glyph's pixels are all lit, and the first hit acted on is kept (R142). -/
theorem lightGlyph_eq (run : List Pixel) (first : Option Pt3) (s : State) :
    lightGlyph run first s =
      (lightAll run s, first.or ((run.find? (hitActedOn s)).map fun p => ⟨p.x, p.y, p.z⟩)) := by
  induction run generalizing first s with
  | nil => simp [lightGlyph, lightAll]
  | cons p rest ih =>
    have hdrawn := drawn_illuminate p.x p.y p.i p.c s
    have hsame : hitActedOn (illuminate p.x p.y p.i p.c s).1 = hitActedOn s := by
      funext q
      rw [hitActedOn, hdrawn.P_eq, hdrawn.penHits_eq, hitActedOn]
    have hacted : (penHits s p && s.P.lpIntrEna) = hitActedOn s p := rfl
    simp only [lightGlyph, ih, illuminate_hit, hdrawn.P_eq, hsame, hacted]
    cases hhit : hitActedOn s p with
    | false => simp [hhit, lightAll]
    | true => cases first <;> simp [hhit, lightAll]

section
variable {pts : List Pt3} {s : State} {run : List Pixel} (hrun : run = if lit s true then pts.map (pixelAt s) else [])
include hrun

/-- A glyph without a hit acted on is lit whole (R142). -/
theorem glyphDraw_of_miss (h : run.find? (hitActedOn s) = none) : glyphDraw pts s = lightAll run s := by
  simp [glyphDraw, ← hrun, lightGlyph_eq, h]

/-- The first hit acted on of a glyph is reported after the whole glyph is lit (R142). -/
theorem glyphDraw_of_hit {p : Pixel} (h : run.find? (hitActedOn s) = some p) :
    glyphDraw pts s = lightPenHit ⟨p.x, p.y, p.z⟩ (lightAll run s) := by
  simp [glyphDraw, ← hrun, lightGlyph_eq, h]

end

/-- Settles O31: the first hit acted on is absent, or the one given. -/
theorem glyphIsOneUnitForTheLightPen : Obligations.GlyphIsOneUnitForTheLightPen := by
  refine fun pts s run hrun =>
    ⟨fun hmiss => glyphDraw_of_miss hrun (List.find?_eq_none.2 fun p hp => ?_),
      fun pre p post hena hsplit hpre hhit => glyphDraw_of_hit hrun (List.find?_eq_some_iff_append.2
        ⟨?_, pre, post, hsplit, fun q hq => ?_⟩)⟩
  · rcases hmiss with hmiss | hmiss
    · simp [hitActedOn, hmiss]
    · simp [hitActedOn, hmiss p hp]
  · simp [hitActedOn, hhit, hena]
  · simp [hitActedOn, hpre q hq]

/-! ## Faulted characters -/

/-- `s` with a character fault flagged and latched, the position at `np` and reported, and the shift `so` (R159,
R162). -/
def faultedAt (s : State) (np : Pt3) (so : Bool) : State :=
  { s with flags := { s.flags with charFault := true }, pend := { s.pend with charFault := true }, pos := np,
           rpt := displayed s np, regs := { s.regs with so := so } }

/-- A fault is flagged, latched and the position reported before the code is looked at (R162; log 9). -/
theorem charFaultItem_eq (b : BitVec 7) (s : State) :
    charFaultItem b s = charCode false b (faultedAt s s.pos s.regs.so) := rfl

/-- Whether a code prints: from 040 on always, else while shifted out unless it is a control code (R137). -/
def codePrints (s : State) (b : BitVec 7) : Bool :=
  decide (0o040 ≤ b.toNat) || s.regs.so && !controlCodes.contains b

/-- Where a code leaves the position (R137, R139, R141). -/
def codePos (s : State) (b : BitVec 7) : Pt3 :=
  if b = 0o010 then movedOnPage s (-charAdvance s) 0
  else if b = 0o012 then movedOnPage s 0 (lineHeight s)
  else if b = 0o015 then (if rotated s then ⟨s.pos.x, 0, s.pos.z⟩ else ⟨0, s.pos.y, s.pos.z⟩)
  else if codePrints s b then movedOnPage s (charAdvance s) 0
  else s.pos

/-- How a code leaves the shift (R137). -/
def codeShift (s : State) (b : BitVec 7) : Bool :=
  if b = 0o016 then true else if b = 0o017 then false else s.regs.so

section
variable {s : State} {b : BitVec 7} (hb : b ∉ controlCodes)
include hb

theorem codePos_of_not_control : codePos s b = if codePrints s b then advanced s else s.pos := by
  obtain ⟨hbs, hlf, hcr, -, -⟩ := not_mem_controlCodes.1 hb
  rw [codePos, if_neg hbs, if_neg hlf, if_neg hcr, advanced_eq]

theorem codeShift_of_not_control : codeShift s b = s.regs.so := by
  obtain ⟨-, -, -, hso, hsi⟩ := not_mem_controlCodes.1 hb
  rw [codeShift, if_neg hso, if_neg hsi]

/-- Below 040 a code that is no control code prints while shifted out (R137). -/
theorem codePrints_of_low (hlow : b.toNat < 0o040) : codePrints s b = s.regs.so := by
  simp [codePrints, hb, Nat.not_le.2 hlow]

end

/-- From 040 on every code prints (R137). -/
theorem codePrints_of_high {s : State} {b : BitVec 7} (h : 0o040 ≤ b.toNat) : codePrints s b = true := by
  simp [codePrints, h]

/-- A control code never prints (R137). -/
theorem codePrints_of_control {s : State} {b : BitVec 7} (hb : b ∈ controlCodes) : codePrints s b = false := by
  simp [codePrints, hb, Nat.not_le.2 (toNat_lt_of_mem_controlCodes b hb)]

/-- A shift leaves the position (R137). -/
theorem codePos_of_shift {s : State} {b : BitVec 7} (h : b = 0o016 ∨ b = 0o017) : codePos s b = s.pos := by
  have hmem : b ∈ controlCodes := by rcases h with rfl | rfl <;> decide
  have hpos : codePos s b = if codePrints s b then movedOnPage s (charAdvance s) 0 else s.pos := by
    rcases h with rfl | rfl <;> rfl
  rw [hpos, codePrints_of_control hmem]
  rfl

/-- A faulted control code moves, reports and shifts (R139, R159; log 9). -/
theorem charFaultItem_of_control {b : BitVec 7} (hb : b ∈ controlCodes) (s : State) :
    charFaultItem b s = faultedAt s (codePos s b) (codeShift s b) := by
  obtain rfl | rfl | rfl | rfl | rfl := mem_controlCodes.1 hb
  · exact congrArg (faultedAt s · s.regs.so) (backspaced_eq s)
  · exact congrArg (faultedAt s · s.regs.so) (lineFed_eq s)
  · rfl
  · exact congrArg (faultedAt s · true) (codePos_of_shift (.inl rfl)).symm
  · exact congrArg (faultedAt s · false) (codePos_of_shift (.inr rfl)).symm

/-- Any other faulted code advances where it prints, and else stays (R141, R159). -/
theorem charFaultItem_of_not_control {b : BitVec 7} (hb : b ∉ controlCodes) (s : State) :
    charFaultItem b s =
      if codePrints s b then faultedGlyph b (faultedAt s s.pos s.regs.so) else faultedAt s s.pos s.regs.so := by
  rw [charFaultItem_eq]
  obtain hlow | hhigh := Nat.lt_or_ge b.toNat 0o040
  · rw [charCode_of_low false _ hlow hb, codePrints_of_low hb hlow]
    rfl
  · rw [charCode_of_high false _ hhigh, codePrints_of_high hhigh]
    rfl

/-- A faulted printing code advances, and crosses the boundary where the free value says so (R141, R162). -/
theorem faultedGlyph_cases (b : BitVec 7) (s : State) :
    faultedGlyph b s = moveTo (advanced s) s ∨
      faultedGlyph b s = charCrossing (displayed s s.pos) (displayed s (advanced s)) (moveTo (advanced s) s) := by
  unfold faultedGlyph
  cases Config.charFaultEdge b s.pos s.tick
  · exact .inl rfl
  · exact .inr rfl

/-- A faulted character moves, reports and shifts, and where it prints may raise the edge event (R159, R162; log 9). -/
theorem charFaultItem_cases (b : BitVec 7) (s : State) :
    charFaultItem b s = faultedAt s (codePos s b) (codeShift s b) ∨
      (codePrints s b = true ∧ edgesOn s = true ∧
        inViewport (viewport s) (displayed s s.pos) ≠ inViewport (viewport s) (displayed s (codePos s b)) ∧
        charFaultItem b s =
          edgeEvent (if inViewport (viewport s) (displayed s s.pos) then displayed s s.pos
            else displayed s (codePos s b)) (inViewport (viewport s) (displayed s s.pos))
            (faultedAt s (codePos s b) (codeShift s b))) := by
  by_cases hb : b ∈ controlCodes
  · exact .inl (charFaultItem_of_control hb s)
  · rw [charFaultItem_of_not_control hb, codePos_of_not_control hb, codeShift_of_not_control hb]
    cases hprints : codePrints s b with
    | false => exact .inl rfl
    | true =>
      obtain h | h := faultedGlyph_cases b (faultedAt s s.pos s.regs.so)
      · exact .inl h
      · rw [if_pos rfl, h]
        exact (charCrossing_cases (displayed s s.pos) (displayed s (advanced s))
          (faultedAt s (advanced s) s.regs.so)).imp_right fun hevent => ⟨rfl, hevent⟩

/-- Settles O33: what `charFaultItem_cases` says, and the default condition by its definition. -/
theorem faultedCharacterIsNotDrawn : Obligations.FaultedCharacterIsNotDrawn := by
  refine ⟨?faulted, fun b s hnever => ?never⟩
  case faulted =>
    rintro b s _ _ _ _ _ _ _ _ _ hfault hterm rfl rfl rfl rfl rfl rfl rfl rfl rfl
    rw [charItem_of_fault hterm hfault]
    exact ⟨rfl, charFaultItem_cases b s⟩
  case never => rw [charFaultHolds, hnever]

end Sys2Proof.Machine

/-! PROOFS. O43, O41 and O42: the phosphor engine (R146 to R152). Lighting a cell and one decay step are the same change
of the engine, `setCell`; one lemma says what that keeps, and an induction on the loop of `Age` carries it on. -/

namespace Sys2Proof.Machine

/-! ## Init -/

theorem initEngine_of_unknown (s : State) {name : Nat} (scale : Nat) (h : ∀ p ∈ s.cfg.profiles, p.name ≠ name) :
    initEngine name scale s = initFail .unknownType s := by
  have hnone : s.cfg.profiles.find? (fun p => p.name == name) = none := by simpa using h
  unfold initEngine
  rw [hnone]

/-- The first profile of the name is taken, and its scale and refresh interval are tested (R147). -/
theorem initEngine_of_profile {s : State} {name : Nat} {pre post : List Profile} {p : Profile} (scale : Nat)
    (hlist : s.cfg.profiles = pre ++ p :: post) (hpre : ∀ q ∈ pre, q.name ≠ name) (hp : p.name = name) :
    initEngine name scale s =
      if scale < 1 then initFail .badScale s
      else if p.refreshTicks < 1 ∨ s.cfg.tickMax < p.refreshTicks then initFail .badInterval s
      else call (.videoInit p scale) { s with ph := initPhosphor p scale } := by
  have hfind : s.cfg.profiles.find? (fun p => p.name == name) = some p :=
    List.find?_eq_some_iff_append.2 ⟨by simpa using hp, pre, post, hlist, by simpa using hpre⟩
  unfold initEngine
  rw [hfind]

/-- Settles O43: the three tests of `initEngine` in their order. -/
theorem initSelectsAProfileOrFails : Obligations.InitSelectsAProfileOrFails := by
  intro s t name scale rest htodo ht
  have hcfg : t.cfg = s.cfg := by rw [ht]
  have hstep : step s = .next (initEngine name scale t) := by
    rw [ht]
    exact step_of_todo htodo
  rw [hstep]
  refine ⟨fun hno => ?unknown, fun pre p post hlist hpre hp => ?known⟩
  case unknown =>
    rw [initEngine_of_unknown t scale (by rwa [hcfg]), ht]
    rfl
  case known =>
    rw [initEngine_of_profile scale (hcfg ▸ hlist) hpre hp, hcfg]
    refine ⟨fun hzero => ?_, fun hscale hbad => ?_, fun hscale hlow hhigh => ?_⟩
    · rw [if_pos (by omega), ht]
      rfl
    · rw [if_neg (by omega), if_pos (by omega), ht]
      rfl
    · rw [if_neg (by omega), if_neg (by omega), ht]
      rfl

/-! ## The queue of the engine -/

/-- What holds of the engine also between two decay steps, when events may be due: all of `PhosphorOk` but that no event
is due, and that the queued events lie within one decay interval of each other (R151, R152). -/
structure Queued (p : Phosphor) : Prop where
  profile : p.profile.legal = true
  scale : 1 ≤ p.scale
  cells : sparseWf darkCell (gridWidth p * gridHeight p) p.cells = true
  nodup : p.queue.Nodup
  lit : ∀ k, k ∈ p.queue ↔ 0 < (cellAt p k).ttl
  ttl_le : ∀ k, (cellAt p k).ttl ≤ p.profile.maxTtl
  order : p.queue.Pairwise fun j k =>
    (cellAt p j).next ≤ (cellAt p k).next ∧ (cellAt p k).next ≤ (cellAt p j).next + p.profile.stepTicks
  ahead : ∀ k ∈ p.queue, (cellAt p k).next ≤ p.clock + p.profile.stepTicks

/-- The engine's invariant is that of its queue with no event due. -/
theorem phosphorOk_iff (p : Phosphor) : PhosphorOk p ↔ Queued p ∧ ∀ k ∈ p.queue, p.clock < (cellAt p k).next := by
  constructor
  · rintro ⟨hprofile, hscale, hcells, hnodup, hlit, httl, horder, hnext⟩
    refine ⟨⟨hprofile, hscale, hcells, hnodup, hlit, httl, ?_, fun k hk => (hnext k hk).2⟩, fun k hk => (hnext k hk).1⟩
    refine horder.imp_of_mem fun hj hk hle => ⟨hle, ?_⟩
    have := hnext _ hj
    have := hnext _ hk
    omega
  · rintro ⟨h, hdue⟩
    exact ⟨h.profile, h.scale, h.cells, h.nodup, h.lit, h.ttl_le, h.order.imp And.left,
      fun k hk => ⟨hdue k hk, h.ahead k hk⟩⟩

theorem Queued.maxTtl_pos {p : Phosphor} (h : Queued p) : 1 ≤ p.profile.maxTtl := by
  have := h.profile
  simp only [Profile.legal, Bool.and_eq_true, decide_eq_true_eq] at this
  exact this.1.1

theorem Queued.stepTicks_pos {p : Phosphor} (h : Queued p) : 1 ≤ p.profile.stepTicks := by
  have := h.profile
  simp only [Profile.legal, Bool.and_eq_true, decide_eq_true_eq] at this
  exact this.1.2

/-- A key that reads other than the default is listed. -/
theorem exists_mem_of_sparseGet_ne {α : Type} {d : α} {a : Nat} {l : List (Nat × α)} (h : sparseGet d l a ≠ d) :
    ∃ p ∈ l, p.1 = a := by
  induction l with
  | nil => exact absurd rfl h
  | cons q t ih =>
    rw [sparseGet_cons] at h
    split at h
    · next hq => exact ⟨q, List.mem_cons_self, hq.symm⟩
    · obtain ⟨p, hp, hpa⟩ := ih h
      exact ⟨p, List.mem_cons_of_mem q hp, hpa⟩

/-- A queued cell lies on the grid. -/
theorem Queued.lt_of_mem {p : Phosphor} (h : Queued p) {k : Nat} (hk : k ∈ p.queue) :
    k < gridWidth p * gridHeight p := by
  have hlit : cellAt p k ≠ darkCell := fun hdark => by
    have := (h.lit k).1 hk
    rw [hdark] at this
    exact absurd this (by decide)
  obtain ⟨e, he, rfl⟩ := exists_mem_of_sparseGet_ne hlit
  exact (((sparseWf_iff _ _ _).1 h.cells).2 e he).1

/-! ## Setting a cell -/

/-- The engine with cell `k` made `e`: taken out of the queue, and queued at the tail where `e` is lit. -/
def setCell (k : Nat) (e : Cell) (p : Phosphor) : Phosphor :=
  { p with cells := sparseSet darkCell k e p.cells
           queue := (p.queue.filter fun j => j != k) ++ if 0 < e.ttl then [k] else [] }

theorem cellAt_setCell {p : Phosphor} (h : Queued p) (k : Nat) (e : Cell) (j : Nat) :
    cellAt (setCell k e p) j = if j = k then e else cellAt p j :=
  sparseGet_sparseSet _ _ _ _ _ ((sparseWf_iff _ _ _).1 h.cells).1

theorem mem_queue_setCell (p : Phosphor) (k : Nat) (e : Cell) (j : Nat) :
    j ∈ (setCell k e p).queue ↔ j ≠ k ∧ j ∈ p.queue ∨ j = k ∧ 0 < e.ttl := by
  unfold setCell
  split <;> simp [and_comm, *]

/-- Setting a cell keeps the queue's invariant where the cell, if lit, has the latest event of the queue, and no more
than one decay interval after the others. -/
theorem Queued.setCell {p : Phosphor} (h : Queued p) {k : Nat} {e : Cell} (hk : k < gridWidth p * gridHeight p)
    (httl : e.ttl ≤ p.profile.maxTtl)
    (hlast : 0 < e.ttl → e.next ≤ p.clock + p.profile.stepTicks ∧
      ∀ j ∈ p.queue, (cellAt p j).next ≤ e.next ∧ e.next ≤ (cellAt p j).next + p.profile.stepTicks) :
    Queued (setCell k e p) where
  profile := h.profile
  scale := h.scale
  cells := sparseSet_wf _ _ _ _ _ hk h.cells
  nodup := by
    refine (h.nodup.filter _).append (by split <;> simp) ?_
    split <;> simp
  lit j := by
    rw [mem_queue_setCell, cellAt_setCell h, h.lit j]
    split <;> simp [*]
  ttl_le j := by
    rw [cellAt_setCell h]
    split
    · exact httl
    · exact h.ttl_le j
  order := by
    have hold : ∀ j ∈ p.queue.filter (fun j => j != k), j ∈ p.queue ∧ cellAt (Machine.setCell k e p) j = cellAt p j := by
      intro j hj
      obtain ⟨hmem, hne⟩ := List.mem_filter.1 hj
      exact ⟨hmem, by rw [cellAt_setCell h, if_neg (by simpa using hne)]⟩
    refine List.pairwise_append.2 ⟨?_, by split <;> simp, fun j hj i hi => ?_⟩
    · refine (h.order.filter _).imp_of_mem fun hi hj hij => ?_
      rw [(hold _ hi).2, (hold _ hj).2]
      exact hij
    · split at hi
      · next hlit =>
        rw [List.mem_singleton.1 hi, (hold j hj).2, cellAt_setCell h, if_pos rfl]
        exact (hlast hlit).2 j (hold j hj).1
      · cases hi
  ahead j hj := by
    rw [cellAt_setCell h]
    obtain ⟨hne, hmem⟩ | ⟨rfl, hlit⟩ := (mem_queue_setCell p k e j).1 hj
    · rw [if_neg hne]
      exact h.ahead j hmem
    · rw [if_pos rfl]
      exact (hlast hlit).1

/-! ## Lighting a point -/

/-- The queue without a cell, as lighting takes it out (R148). -/
theorem Queued.unlinked {p : Phosphor} (h : Queued p) (k : Nat) :
    (if 0 < (cellAt p k).ttl then p.queue.erase k else p.queue) = p.queue.filter fun j => j != k := by
  split
  · exact h.nodup.erase_eq_filter k
  · next hdark =>
    have hk : k ∉ p.queue := fun hk => hdark ((h.lit k).1 hk)
    refine (List.filter_eq_self.2 fun j hj => ?_).symm
    have : j ≠ k := fun hjk => hk (hjk ▸ hj)
    simpa using this

theorem lightCell_eq {p : Phosphor} (h : Queued p) (c : Params) (k : Nat) (i : BitVec 3) (color : BitVec 1) :
    lightCell c p k i color = setCell k (litCell c p (cellAt p k) i color) p := by
  have hlit : 0 < (litCell c p (cellAt p k) i color).ttl := h.maxTtl_pos
  unfold lightCell setCell
  rw [h.unlinked, if_pos hlit]

theorem illuminate_of_off {s : State} {x y : Int} (h : onGrid s.ph x y = false) (i : BitVec 3) (c : BitVec 1) :
    illuminate x y i c s = (s, false) := by
  unfold illuminate
  rw [h]
  rfl

/-- Lighting a point on the grid sets its cell, shows it, and answers by the light-pen test (R148, R149). -/
theorem illuminate_of_on {s : State} (hq : Queued s.ph) {x y : Int} (h : onGrid s.ph x y = true) (i : BitVec 3)
    (c : BitVec 1) {e : Cell} (he : e = litCell s.cfg s.ph (cellAt s.ph (pointKey s.ph x y)) i c) :
    illuminate x y i c s =
      ({ s with ph := setCell (pointKey s.ph x y) e s.ph,
                out := .setPixel (x / (s.ph.scale : Int)).toNat (y / (s.ph.scale : Int)).toNat
                  (decayColor s.ph.profile e.level 0 c) :: s.out }, lpTest s x y) := by
  subst he
  unfold illuminate
  rw [if_pos h, ← lightCell_eq hq]
  rfl

/-- The cell of a point on the grid: within the grid, and its column and row by division (R148). -/
theorem pointKey_of_onGrid {p : Phosphor} {x y : Int} (h : onGrid p x y = true) :
    pointKey p x y < gridWidth p * gridHeight p ∧
      pointKey p x y % gridWidth p = (x / (p.scale : Int)).toNat ∧
      pointKey p x y / gridWidth p = (y / (p.scale : Int)).toNat := by
  simp only [onGrid, Bool.and_eq_true, decide_eq_true_eq] at h
  obtain ⟨⟨⟨hx0, hx⟩, hy0⟩, hy⟩ := h
  unfold pointKey cellKey
  generalize hcx : (x / (p.scale : Int)).toNat = cx
  generalize hcy : (y / (p.scale : Int)).toNat = cy
  have hcxW : cx < gridWidth p := by omega
  have hcyH : cy + 1 ≤ gridHeight p := by omega
  refine ⟨?_, ?_, ?_⟩
  · calc cy * gridWidth p + cx < (cy + 1) * gridWidth p := by rw [Nat.succ_mul]; omega
      _ ≤ gridHeight p * gridWidth p := Nat.mul_le_mul_right _ hcyH
      _ = gridWidth p * gridHeight p := Nat.mul_comm ..
  · rw [Nat.mul_add_mod', Nat.mod_eq_of_lt hcxW]
  · rw [Nat.mul_comm, Nat.mul_add_div (by omega), Nat.div_eq_of_lt hcxW, Nat.add_zero]

theorem litLevel_of_no_brighten {c : Params} (h : c.brighten = false) (m : Nat) (e : Cell) (i : BitVec 3)
    (color : BitVec 1) : litLevel c m e i color = i := by
  simp [litLevel, h]

theorem litLevel_of_brighten {c : Params} (h : c.brighten = true) (m : Nat) (e : Cell) (i : BitVec 3)
    (color : BitVec 1) : (litLevel c m e i color).toNat =
      if 0 < e.ttl ∧ m - 1 ≤ e.ttl ∧ e.level.toNat ≤ i.toNat ∧ color = e.color then
        min 7 (max i.toNat (e.level.toNat + 1))
      else i.toNat := by
  unfold litLevel
  simp only [h, true_and]
  split
  · rw [BitVec.toNat_ofNat, Nat.mod_eq_of_lt (by omega)]
  · rfl

/-- The light-pen test: within the radius, which is not 0, of the pen (R149). -/
theorem lpTest_iff (s : State) (x y : Int) : lpTest s x y = true ↔
    0 < s.cfg.lpRadius ∧ (x - s.ph.penX) ^ 2 + (y - s.ph.penY) ^ 2 ≤ (s.cfg.lpRadius : Int) ^ 2 := by
  simp only [lpTest, Bool.and_eq_true, decide_eq_true_eq, sq]

/-- Settles O41: by `illuminate_of_on` a lit point sets one cell. -/
theorem illuminateLightsOneCell : Obligations.IlluminateLightsOneCell := by
  intro x y i c s hok
  have hq := ((phosphorOk_iff s.ph).1 hok).1
  refine ⟨fun hoff => illuminate_of_off hoff i c, ?_⟩
  rintro hon k _ rfl rfl
  obtain ⟨-, hcol, hrow⟩ := pointKey_of_onGrid hon
  generalize he : litCell s.cfg s.ph (cellAt s.ph (pointKey s.ph x y)) i c = e
  have hpos : 0 < e.ttl := by rw [← he]; exact hq.maxTtl_pos
  rw [illuminate_of_on hq hon i c he.symm, hcol, hrow]
  dsimp only
  rw [cellAt_setCell hq, if_pos rfl]
  refine ⟨fun hb => ?noBrighten, fun hb e' he' => ?brighten, ?_, ?_, ?_, fun j hj => ?other, ?queue, rfl, rfl,
    lpTest_iff s x y⟩
  case noBrighten =>
    rw [← he]
    exact litLevel_of_no_brighten hb ..
  case brighten =>
    rw [← he, he']
    exact litLevel_of_brighten hb ..
  case other => rw [cellAt_setCell hq, if_neg hj]
  case queue => rw [setCell, if_pos hpos]
  all_goals
    rw [← he]
    rfl

/-- Lighting keeps the engine's invariant: the lit cell has the latest event of the queue (R148, R151). -/
theorem phosphorOk_illuminate {s : State} (h : PhosphorOk s.ph) (x y : Int) (i : BitVec 3) (c : BitVec 1) :
    PhosphorOk (illuminate x y i c s).1.ph := by
  obtain ⟨hq, hdue⟩ := (phosphorOk_iff s.ph).1 h
  cases hon : onGrid s.ph x y with
  | false =>
    rw [illuminate_of_off hon]
    exact h
  | true =>
    generalize he : litCell s.cfg s.ph (cellAt s.ph (pointKey s.ph x y)) i c = e
    have hnext : e.next = s.ph.clock + s.ph.profile.stepTicks := by rw [← he]; rfl
    have httl : e.ttl = s.ph.profile.maxTtl := by rw [← he]; rfl
    rw [illuminate_of_on hq hon i c he.symm]
    refine (phosphorOk_iff _).2 ⟨hq.setCell (pointKey_of_onGrid hon).1 httl.le
      fun _ => ⟨hnext.le, fun j hj => ?_⟩, fun j hj => ?_⟩
    · have := hdue j hj
      have := hq.ahead j hj
      omega
    · have hstep := hq.stepTicks_pos
      rw [cellAt_setCell hq]
      show s.ph.clock < _
      obtain ⟨hne, hmem⟩ | ⟨rfl, -⟩ := (mem_queue_setCell s.ph _ e j).1 hj
      · rw [if_neg hne]
        exact hdue j hmem
      · rw [if_pos rfl]
        omega

end Sys2Proof.Machine

/-! PROOFS. O42: aging (R150, R152). `Aged` says what a run of decay steps does to every cell and which calls it makes;
each step of the loop of `Age` meets it, and the loop ends with nothing due. -/

namespace Sys2Proof.Machine

/-! ## The decayed cell -/

theorem decayCell_ttl (p : Phosphor) (e : Cell) : (decayCell p e).ttl = e.ttl - 1 := by
  unfold decayCell
  split
  · next h => exact h.symm
  · rfl

theorem decayCell_level (p : Phosphor) (e : Cell) : (decayCell p e).level = e.level := by
  unfold decayCell
  split <;> rfl

theorem decayCell_color (p : Phosphor) (e : Cell) : (decayCell p e).color = e.color := by
  unfold decayCell
  split <;> rfl

theorem decayCell_next_of_lit (p : Phosphor) {e : Cell} (h : 0 < e.ttl - 1) :
    (decayCell p e).next = e.next + p.profile.stepTicks := by
  unfold decayCell
  rw [if_neg h.ne']

/-- The call that shows the colour of cell `k`, which was `c`, after its decay step number `j`, the first one number 0
(R150). -/
def decayCall (p : Phosphor) (k : Nat) (c : Cell) (j : Nat) : OutCall :=
  .setPixel (k % gridWidth p) (k / gridWidth p)
    (if c.ttl - (j + 1) = 0 then .off
      else decayColor p.profile c.level (p.profile.maxTtl - (c.ttl - (j + 1))) c.color)

/-- A decay step's call shows at the place of its own cell and of no other. -/
theorem isPixelAt_decayCall (p : Phosphor) (k i : Nat) (c : Cell) (j : Nat) :
    isPixelAt (k % gridWidth p) (k / gridWidth p) (decayCall p i c j) = decide (i = k) := by
  rw [Bool.eq_iff_iff, decide_eq_true_iff]
  simp only [isPixelAt, decayCall, Bool.and_eq_true, beq_iff_eq]
  constructor
  · rintro ⟨hmod, hdiv⟩
    rw [← Nat.mod_add_div i (gridWidth p), hmod, hdiv, Nat.mod_add_div]
  · rintro rfl
    exact ⟨rfl, rfl⟩

/-- The calls of a cell's decay steps after the first `n` are those of the cell that these steps leave. -/
theorem decayCall_add {p : Phosphor} {c d : Cell} (hlevel : d.level = c.level) (hcolor : d.color = c.color)
    (k n j : Nat) (httl : d.ttl = c.ttl - n) : decayCall p k c (n + j) = decayCall p k d j := by
  have hleft : c.ttl - (n + j + 1) = d.ttl - (j + 1) := by omega
  unfold decayCall
  rw [hleft, hlevel, hcolor]

/-! ## What a run of decay steps does -/

/-- `t` is `s` after some decay steps: a lit cell goes dark at the time it had, levels and colours stay, and each cell's
steps were shown in their order (R150, R152). -/
structure Aged (s t : State) : Prop where
  ph : t.ph = { s.ph with cells := t.ph.cells, queue := t.ph.queue }
  ttl_le : ∀ k, (cellAt t.ph k).ttl ≤ (cellAt s.ph k).ttl
  darkTime : ∀ k, 0 < (cellAt t.ph k).ttl → darkTime t.ph k = darkTime s.ph k
  level : ∀ k, (cellAt t.ph k).level = (cellAt s.ph k).level
  color : ∀ k, (cellAt t.ph k).color = (cellAt s.ph k).color
  calls : ∃ calls, t.out = calls ++ s.out ∧ (∀ o ∈ calls, ∃ cx cy color, o = .setPixel cx cy color) ∧
    ∀ k, (calls.filter (isPixelAt (k % gridWidth s.ph) (k / gridWidth s.ph))).reverse =
      (List.range ((cellAt s.ph k).ttl - (cellAt t.ph k).ttl)).map (decayCall s.ph k (cellAt s.ph k))

theorem Aged.refl (s : State) : Aged s s where
  ph := rfl
  ttl_le _ := le_rfl
  darkTime _ _ := rfl
  level _ := rfl
  color _ := rfl
  calls := ⟨[], rfl, by simp, by simp⟩

theorem Aged.trans {s t u : State} (h1 : Aged s t) (h2 : Aged t u) : Aged s u where
  ph := by rw [h2.ph, h1.ph]
  ttl_le k := (h2.ttl_le k).trans (h1.ttl_le k)
  darkTime k hk := (h2.darkTime k hk).trans (h1.darkTime k (hk.trans_le (h2.ttl_le k)))
  level k := (h2.level k).trans (h1.level k)
  color k := (h2.color k).trans (h1.color k)
  calls := by
    obtain ⟨early, hearly, hpixel, hshown⟩ := h1.calls
    obtain ⟨late, hlate, hpixel', hshown'⟩ := h2.calls
    refine ⟨late ++ early, by rw [hlate, hearly, List.append_assoc], fun o ho => ?_, fun k => ?_⟩
    · exact (List.mem_append.1 ho).elim (hpixel' o) (hpixel o)
    · have hprofile : t.ph.profile = s.ph.profile := by rw [h1.ph]
      have hwidth : gridWidth t.ph = gridWidth s.ph := by rw [h1.ph]; rfl
      have hst := h1.ttl_le k
      have htu := h2.ttl_le k
      have hsplit : (cellAt s.ph k).ttl - (cellAt u.ph k).ttl =
          ((cellAt s.ph k).ttl - (cellAt t.ph k).ttl) + ((cellAt t.ph k).ttl - (cellAt u.ph k).ttl) := by omega
      have hlater (j : Nat) : decayCall s.ph k (cellAt s.ph k) ((cellAt s.ph k).ttl - (cellAt t.ph k).ttl + j) =
          decayCall t.ph k (cellAt t.ph k) j := by
        rw [decayCall_add (h1.level k) (h1.color k) _ _ _ (by omega), decayCall, decayCall, hprofile, hwidth]
      have hshown'' := hshown' k
      rw [hwidth] at hshown''
      rw [List.filter_append, List.reverse_append, hshown, hshown'', hsplit, List.range_add, List.map_append,
        List.map_map]
      exact congrArg _ (List.map_congr_left fun j _ => (hlater j).symm)

/-! ## One decay step -/

/-- One decay interval to the next event and the rest after it are all the intervals that a cell has left. -/
theorem add_pred_mul {n : Nat} (h : 0 < n) (d : Nat) : d + (n - 1) * d = n * d := by
  obtain ⟨m, rfl⟩ := Nat.exists_eq_add_of_le' h
  rw [Nat.add_sub_cancel, Nat.succ_mul, Nat.add_comm]

section
variable {s : State} {k : Nat} {rest : List Nat}

theorem Queued.filter_head {p : Phosphor} (h : Queued p) (hq : p.queue = k :: rest) :
    (p.queue.filter fun j => j != k) = rest := by
  have hnodup := h.nodup
  rw [hq, List.nodup_cons] at hnodup
  rw [hq, List.filter_cons_of_neg (by simp), List.filter_eq_self]
  intro j hj
  have : j ≠ k := fun hjk => hnodup.1 (hjk ▸ hj)
  simpa using this

/-- A decay step sets the cell at the head of the queue and shows it (R150). -/
theorem decayStep_eq_setCell (h : Queued s.ph) (hq : s.ph.queue = k :: rest) :
    decayStep k rest s = { s with ph := setCell k (decayCell s.ph (cellAt s.ph k)) s.ph,
                                  out := decayCall s.ph k (cellAt s.ph k) 0 :: s.out } := by
  have hqueue (e : Cell) : (if e.ttl = 0 then rest else rest ++ [k]) = rest ++ if 0 < e.ttl then [k] else [] := by
    by_cases he : e.ttl = 0 <;> simp [he, Nat.pos_iff_ne_zero]
  have hcolor : decayedColor s.ph (decayCell s.ph (cellAt s.ph k)) =
      if (cellAt s.ph k).ttl - 1 = 0 then .off
      else decayColor s.ph.profile (cellAt s.ph k).level (s.ph.profile.maxTtl - ((cellAt s.ph k).ttl - 1))
        (cellAt s.ph k).color := by
    rw [decayedColor, decayCell_ttl, decayCell_level, decayCell_color]
  unfold decayStep setCell
  dsimp only
  rw [hqueue, hcolor, h.filter_head hq]
  rfl

/-- A due decay step keeps the queue's invariant: the head of the queue has the earliest event (R151). -/
theorem Queued.decayStep (h : Queued s.ph) (hq : s.ph.queue = k :: rest)
    (hdue : (cellAt s.ph k).next ≤ s.ph.clock) : Queued (decayStep k rest s).ph := by
  rw [decayStep_eq_setCell h hq]
  refine h.setCell (h.lt_of_mem (by simp [hq])) ?_ fun hlit => ?_
  · rw [decayCell_ttl]
    exact (Nat.sub_le ..).trans (h.ttl_le k)
  · rw [decayCell_ttl] at hlit
    rw [decayCell_next_of_lit _ hlit]
    refine ⟨by omega, fun j hj => ?_⟩
    have horder := h.order
    rw [hq] at horder hj
    obtain rfl | hj := List.mem_cons.1 hj
    · omega
    · have := (List.pairwise_cons.1 horder).1 j hj
      omega

theorem aged_decayStep (h : Queued s.ph) (hq : s.ph.queue = k :: rest) : Aged s (decayStep k rest s) := by
  have hlit : 0 < (cellAt s.ph k).ttl := (h.lit k).1 (by simp [hq])
  have hcell := cellAt_setCell h k (decayCell s.ph (cellAt s.ph k))
  rw [decayStep_eq_setCell h hq]
  refine ⟨rfl, fun j => ?ttl, fun j hj => ?dark, fun j => ?level, fun j => ?color,
    [decayCall s.ph k (cellAt s.ph k) 0], rfl, ?pixel, fun j => ?shown⟩
  case ttl =>
    rw [hcell]
    split
    · next hjk =>
      rw [decayCell_ttl, hjk]
      exact Nat.sub_le ..
    · exact le_rfl
  case dark =>
    rw [hcell] at hj
    unfold darkTime
    rw [hcell]
    split at hj
    · next hjk =>
      rw [decayCell_ttl] at hj
      rw [if_pos hjk, decayCell_ttl, decayCell_next_of_lit _ hj, hjk, Nat.add_assoc]
      exact congrArg _ (add_pred_mul hj _)
    · next hjk =>
      rw [if_neg hjk]
      rfl
  case level =>
    rw [hcell]
    split
    · next hjk => rw [decayCell_level, hjk]
    · rfl
  case color =>
    rw [hcell]
    split
    · next hjk => rw [decayCell_color, hjk]
    · rfl
  case pixel =>
    intro o ho
    exact ⟨_, _, _, List.mem_singleton.1 ho⟩
  case shown =>
    rw [hcell, List.filter_singleton, isPixelAt_decayCall]
    by_cases hjk : j = k
    · have hone : (cellAt s.ph k).ttl - ((cellAt s.ph k).ttl - 1) = 1 := by omega
      rw [if_pos hjk, hjk, decayCell_ttl, hone]
      simp
    · rw [if_neg hjk, Nat.sub_self]
      simp [Ne.symm hjk]

/-- A decay step lowers the measure of the loop. -/
theorem decayFuel_decayStep (h : Queued s.ph) (hq : s.ph.queue = k :: rest) :
    decayFuel (decayStep k rest s).ph < decayFuel s.ph := by
  have hlit : 0 < (cellAt s.ph k).ttl := (h.lit k).1 (by simp [hq])
  have hcell := cellAt_setCell h k (decayCell s.ph (cellAt s.ph k))
  have hnodup := h.nodup
  rw [hq, List.nodup_cons] at hnodup
  have hrest : (rest.map fun j => (cellAt (setCell k (decayCell s.ph (cellAt s.ph k)) s.ph) j).ttl + 1) =
      rest.map fun j => (cellAt s.ph j).ttl + 1 := by
    refine List.map_congr_left fun j hj => ?_
    rw [hcell, if_neg fun hjk : j = k => hnodup.1 (hjk ▸ hj)]
  have hqueue : (setCell k (decayCell s.ph (cellAt s.ph k)) s.ph).queue =
      rest ++ if 0 < (cellAt s.ph k).ttl - 1 then [k] else [] := by
    rw [setCell, h.filter_head hq, decayCell_ttl]
  rw [decayStep_eq_setCell h hq]
  unfold decayFuel
  dsimp only
  rw [hqueue, hq, List.map_append, List.sum_append, hrest, List.map_cons, List.sum_cons]
  split
  · rw [List.map_singleton, List.sum_singleton, hcell, if_pos rfl, decayCell_ttl]
    omega
  · rw [List.map_nil, List.sum_nil]
    omega

/-! ## The loop of `Age` -/

/-- The event at the head of the queue, the earliest, is not due. -/
def NothingDue (p : Phosphor) : Prop := ∀ k rest, p.queue = k :: rest → p.clock < (cellAt p k).next

theorem nothingDue_or_due (p : Phosphor) :
    NothingDue p ∨ ∃ k rest, p.queue = k :: rest ∧ (cellAt p k).next ≤ p.clock := by
  by_cases h : ∃ k rest, p.queue = k :: rest ∧ (cellAt p k).next ≤ p.clock
  · exact .inr h
  · exact .inl fun k rest hq => Nat.lt_of_not_le fun hdue => h ⟨k, rest, hq, hdue⟩

/-- Where the head of the queue is not due, no event of the queue is (R151). -/
theorem Queued.not_due {p : Phosphor} (h : Queued p) (hdue : NothingDue p) (j : Nat) (hj : j ∈ p.queue) :
    p.clock < (cellAt p j).next := by
  have horder := h.order
  cases hq : p.queue with
  | nil =>
    rw [hq] at hj
    cases hj
  | cons k rest =>
    have hk := hdue k rest hq
    rw [hq] at hj horder
    obtain rfl | hj := List.mem_cons.1 hj
    · exact hk
    · exact hk.trans_le ((List.pairwise_cons.1 horder).1 j hj).1

theorem decayLoop_of_nothingDue (n : Nat) (h : NothingDue s.ph) : decayLoop n s = s := by
  cases n with
  | zero => rfl
  | succ n =>
    unfold decayLoop
    split
    · rfl
    · next k rest hq => exact if_neg (h k rest hq).not_ge

theorem decayLoop_of_due (n : Nat) (hq : s.ph.queue = k :: rest) (hdue : (cellAt s.ph k).next ≤ s.ph.clock) :
    decayLoop (n + 1) s = decayLoop n (decayStep k rest s) := by
  rw [decayLoop, hq]
  exact if_pos hdue

/-- The loop keeps the queue's invariant and ages the cells, however far it goes. -/
theorem decayLoop_spec (n : Nat) {s : State} (h : Queued s.ph) :
    Queued (decayLoop n s).ph ∧ Aged s (decayLoop n s) := by
  induction n generalizing s with
  | zero => exact ⟨h, .refl s⟩
  | succ n ih =>
    obtain hnot | ⟨k, rest, hq, hdue⟩ := nothingDue_or_due s.ph
    · rw [decayLoop_of_nothingDue _ hnot]
      exact ⟨h, .refl s⟩
    · rw [decayLoop_of_due n hq hdue]
      obtain ⟨hqueued, haged⟩ := ih (h.decayStep hq hdue)
      exact ⟨hqueued, (aged_decayStep h hq).trans haged⟩

/-- With the fuel of `Age` the loop ends with nothing due (R150). -/
theorem nothingDue_decayLoop (n : Nat) {s : State} (h : Queued s.ph) (hn : decayFuel s.ph ≤ n) :
    NothingDue (decayLoop n s).ph := by
  induction n generalizing s with
  | zero =>
    intro k rest hq
    have hpos : 0 < decayFuel s.ph := by
      rw [decayFuel, show s.ph.queue = k :: rest from hq, List.map_cons, List.sum_cons]
      omega
    omega
  | succ n ih =>
    obtain hnot | ⟨k, rest, hq, hdue⟩ := nothingDue_or_due s.ph
    · rw [decayLoop_of_nothingDue _ hnot]
      exact hnot
    · have hless := decayFuel_decayStep h hq
      rw [decayLoop_of_due n hq hdue]
      exact ih (h.decayStep hq hdue) (by omega)

end

/-! ## Aging -/

/-- The clock advances (R150). -/
def advanceClock (e : Nat) (s : State) : State := { s with ph := { s.ph with clock := s.ph.clock + e } }

/-- Aging is the loop after the clock's advance, as far as the engine goes (R150). -/
theorem age_ph (e : Nat) (s : State) : (age e s).ph = (decayLoop (decayFuel s.ph) (advanceClock e s)).ph := by
  show (frameSync _).ph = _
  unfold frameSync
  split <;> rfl

/-- The calls of aging are those of the loop, then the flush (R150). -/
theorem age_out (e : Nat) (s : State) :
    (age e s).out = .flush :: (decayLoop (decayFuel s.ph) (advanceClock e s)).out := by
  show .flush :: (frameSync _).out = _
  unfold frameSync
  split <;> rfl

theorem Queued.advanceClock {s : State} (h : Queued s.ph) (e : Nat) : Queued (advanceClock e s).ph :=
  { h with ahead := fun k hk => (h.ahead k hk).trans (by show _ ≤ s.ph.clock + e + s.ph.profile.stepTicks; omega) }

/-- Aging keeps the engine's invariant: nothing is due when it ends (R151, R152). -/
theorem phosphorOk_age {s : State} (h : PhosphorOk s.ph) (e : Nat) : PhosphorOk (age e s).ph := by
  have hq : Queued (advanceClock e s).ph := ((phosphorOk_iff s.ph).1 h).1.advanceClock e
  have hloop := (decayLoop_spec (decayFuel s.ph) hq).1
  rw [age_ph]
  exact (phosphorOk_iff _).2 ⟨hloop, hloop.not_due (nothingDue_decayLoop _ hq le_rfl)⟩

/-- A lit cell's time of going dark lies after the clock (R151). -/
theorem clock_lt_darkTime {p : Phosphor} (h : PhosphorOk p) {k : Nat} (hlit : 0 < (cellAt p k).ttl) :
    p.clock < darkTime p k := by
  obtain ⟨hq, hdue⟩ := (phosphorOk_iff p).1 h
  exact (hdue k ((hq.lit k).2 hlit)).trans_le (Nat.le_add_right ..)

/-- The time at which a cell lit now goes dark (R148, R152). -/
theorem darkTime_illuminate {s : State} (h : PhosphorOk s.ph) {x y : Int} (hon : onGrid s.ph x y = true)
    (i : BitVec 3) (c : BitVec 1) : darkTime (illuminate x y i c s).1.ph (pointKey s.ph x y) =
      s.ph.clock + s.ph.profile.maxTtl * s.ph.profile.stepTicks := by
  have hq := ((phosphorOk_iff s.ph).1 h).1
  rw [illuminate_of_on hq hon i c rfl, darkTime, cellAt_setCell hq, if_pos rfl]
  exact (Nat.add_assoc ..).trans (congrArg _ (add_pred_mul hq.maxTtl_pos _))

/-- Settles O42: the loop's `Aged`, and by the invariant nothing is due when it ends. -/
theorem agedCellsGoDarkOnTime : Obligations.AgedCellsGoDarkOnTime := by
  have hloop (e : Nat) (s : State) (h : PhosphorOk s.ph) :
      Aged (advanceClock e s) (decayLoop (decayFuel s.ph) (advanceClock e s)) :=
    (decayLoop_spec _ (((phosphorOk_iff s.ph).1 h).1.advanceClock e)).2
  refine ⟨?times, ?shown, fun x y i c s h hon => darkTime_illuminate h hon i c⟩
  case times =>
    rintro e s _ k h rfl
    have haged := hloop e s h
    have hok := phosphorOk_age h e
    obtain ⟨hq, hdue⟩ := (phosphorOk_iff _).1 hok
    have hclock : (age e s).ph.clock = s.ph.clock + e := by rw [age_eq]
    have hkept (hlit : 0 < (cellAt (age e s).ph k).ttl) : darkTime (age e s).ph k = darkTime s.ph k := by
      rw [age_ph] at hlit ⊢
      exact haged.darkTime k hlit
    refine ⟨fun j rest hj => hdue j (by simp [hj]), fun hlit => ⟨?_, hkept hlit⟩, fun htime => ?_, ?_, ?_⟩
    · rw [age_ph] at hlit
      exact hlit.trans_le (haged.ttl_le k)
    · by_contra hlit
      have hlit := Nat.pos_of_ne_zero hlit
      have := clock_lt_darkTime hok hlit
      have := hkept hlit
      omega
    · rw [age_ph]
      exact haged.level k
    · rw [age_ph]
      exact haged.color k
  case shown =>
    rintro e s _ h rfl
    obtain ⟨calls, hout, hpixel, hshown⟩ := (hloop e s h).calls
    refine ⟨calls, by rw [age_out, hout]; rfl, hpixel, ?_⟩
    rintro k _ _ _ rfl rfl rfl
    rw [age_ph]
    exact hshown k

end Sys2Proof.Machine

/-! PROOFS. O59: every step keeps the engine's invariant. Only the sample's pen, lighting, aging and `Init` change the
engine; the lemmas above say what the last three keep, and the operations are walked through down to them (R151, R152). -/

namespace Sys2Proof.Machine

/-- The state's engine meets its invariant (R151, R152). -/
def EngineOk (s : State) : Prop := PhosphorOk s.ph

/-! ## Drawing -/

theorem engineOk_drawRun {s : State} (h : EngineOk s) (exit : Option Pt3) (masked : Bool) (run : List Pixel) :
    EngineOk (drawRun exit masked run s) := by
  induction run generalizing s with
  | nil => cases exit <;> exact h
  | cons p rest ih =>
    have hlit : EngineOk (illuminate p.x p.y p.i p.c s).1 := phosphorOk_illuminate h ..
    unfold drawRun
    dsimp only
    split
    · exact hlit
    · exact ih hlit

theorem engineOk_segment {s : State} (h : EngineOk s) (p0 p1 : Pt3) (i : Bool) : EngineOk (segment p0 p1 i s) := by
  unfold segment
  split
  · exact h
  · dsimp only
    split
    · exact engineOk_drawRun h ..
    · exact engineOk_drawRun h ..
    all_goals
      split
      · exact h
      · exact engineOk_drawRun h ..

theorem engineOk_vecItem {s : State} (h : EngineOk s) (p : Pt3) (i : Bool) : EngineOk (vecItem p i s) :=
  engineOk_segment (s := moveTo p s) h ..

theorem engineOk_pointItem {s : State} (h : EngineOk s) (p : Pt3) (i : Bool) : EngineOk (pointItem p i s) := by
  unfold pointItem
  dsimp only
  split
  · exact engineOk_drawRun (s := moveTo p s) h ..
  · exact h

theorem engineOk_arcItem {s : State} (h : EngineOk s) (dc de : Pt3) (i : Bool) : EngineOk (arcItem dc de i s) :=
  engineOk_drawRun (s := moveTo (addPt s.pos de) s) h ..

theorem engineOk_clipStep {s : State} (h : EngineOk s) (c : Cont) : EngineOk (clipStep c s) :=
  engineOk_drawRun (s := { s with clipPend := none }) h ..

theorem engineOk_drawRemainder {s : State} (h : EngineOk s) : EngineOk (drawRemainder s) := by
  unfold drawRemainder
  split
  · exact h
  · exact engineOk_drawRun (s := { s with lpCont := none }) h ..

/-! ## Characters -/

theorem engineOk_lightAll {s : State} (h : EngineOk s) (run : List Pixel) : EngineOk (lightAll run s) := by
  induction run generalizing s with
  | nil => exact h
  | cons p rest ih => exact ih (phosphorOk_illuminate h p.x p.y p.i p.c)

theorem engineOk_glyphDraw {s : State} (h : EngineOk s) (pts : List Pt3) : EngineOk (glyphDraw pts s) := by
  unfold glyphDraw
  dsimp only
  rw [lightGlyph_eq]
  split
  · exact engineOk_lightAll h _
  · exact engineOk_lightAll h _

theorem engineOk_charCrossing {s : State} (h : EngineOk s) (o o' : Pt3) : EngineOk (charCrossing o o' s) := by
  unfold charCrossing
  split
  · exact h
  · exact h

theorem engineOk_glyph {s : State} (h : EngineOk s) (set : CharSet) (b : BitVec 7) : EngineOk (glyph set b s) := by
  unfold glyph
  dsimp only
  split
  · exact engineOk_glyphDraw (s := moveTo (advanced s) s) h _
  · exact engineOk_charCrossing (s := moveTo (advanced s) s) h ..

theorem engineOk_faultedGlyph {s : State} (h : EngineOk s) (b : BitVec 7) : EngineOk (faultedGlyph b s) := by
  obtain hf | hf := faultedGlyph_cases b s <;> rw [hf]
  · exact h
  · exact engineOk_charCrossing (s := moveTo (advanced s) s) h ..

theorem engineOk_printCode {s : State} (h : EngineOk s) (draw : Bool) (set : CharSet) (b : BitVec 7) :
    EngineOk (printCode draw set b s) := by
  cases draw with
  | true => exact engineOk_glyph h set b
  | false => exact engineOk_faultedGlyph h b

theorem engineOk_charCode {s : State} (h : EngineOk s) (draw : Bool) (b : BitVec 7) :
    EngineOk (charCode draw b s) := by
  by_cases hb : b ∈ controlCodes
  · obtain rfl | rfl | rfl | rfl | rfl := mem_controlCodes.1 hb <;> exact h
  · obtain hlow | hhigh := Nat.lt_or_ge b.toNat 0o040
    · rw [charCode_of_low draw _ hlow hb]
      split
      · exact engineOk_printCode h ..
      · exact h
    · rw [charCode_of_high draw _ hhigh]
      exact engineOk_printCode h ..

/-- The stack is no part of the engine. -/
theorem pop_ph (restore : Bool) (s : State) : (pop restore s).ph = s.ph := by
  by_cases hframe : s.sp.val < 8
  · rw [pop_of_frame restore s hframe]
    cases restore <;> rfl
  · rw [pop_of_empty restore s hframe, raiseStackFault_eq]

theorem callSub_ph (target : Nat) (s : State) : (callSub target s).ph = s.ph := by
  by_cases hfull : s.sp = 0
  · rw [callSub_of_full target s hfull]
  · rw [callSub_of_room target s (Fin.pos_iff_ne_zero.2 hfull)]

theorem engineOk_pop {s : State} (h : EngineOk s) (restore : Bool) : EngineOk (pop restore s) :=
  (congrArg PhosphorOk (pop_ph restore s)).mpr h

theorem engineOk_callSub {s : State} (h : EngineOk s) (target : Nat) : EngineOk (callSub target s) :=
  (congrArg PhosphorOk (callSub_ph target s)).mpr h

theorem engineOk_charItem {s : State} (h : EngineOk s) (b : BitVec 7) : EngineOk (charItem b s).1 := by
  unfold charItem
  split_ifs
  · exact engineOk_pop h true
  · exact engineOk_charCode
      (s := moveTo s.pos (raise .charFault { s with flags := { s.flags with charFault := true } })) h false b
  · exact engineOk_charCode h true b

/-! ## The data words -/

theorem engineOk_pairItem {s : State} (h : EngineOk s) (k : PairKind) (b : BitVec 7) :
    EngineOk (pairItem k b s).1 := by
  cases k with
  | char => exact engineOk_charItem h b
  | bsvect => exact engineOk_vecItem h ..

theorem engineOk_execPair {s : State} (h : EngineOk s) (k : PairKind) (b0 b1 : BitVec 7) :
    EngineOk (execPair k b0 b1 s) := by
  have hfirst := engineOk_pairItem h k b0
  unfold execPair
  dsimp only
  split_ifs
  · exact hfirst
  · exact engineOk_pairItem hfirst k b1
  · exact hfirst

theorem engineOk_halfStep {s : State} (h : EngineOk s) (k : Half) : EngineOk (halfStep k s) :=
  engineOk_pairItem (s := { s with pendHalf := none }) h ..

theorem engineOk_pointModeItem (ws : List Word) {s : State} (h : EngineOk s) : EngineOk (pointModeItem ws s) := by
  unfold pointModeItem
  split
  · exact h
  · exact engineOk_pointItem h ..

theorem engineOk_assemble {s : State} (h : EngineOk s) (m : Mode) {item : List Word → State → State}
    (hitem : ∀ (ws : List Word) {s : State}, EngineOk s → EngineOk (item ws s)) (w : Word) :
    EngineOk (assemble m item w s) := by
  unfold assemble
  dsimp only
  split
  · exact hitem _ (s := { s with acc := [] }) h
  · exact h

/-! ## The instructions and the fetched word -/

theorem engineOk_loadStatusA {s : State} (h : EngineOk s) (f : LsraFields) : EngineOk (loadStatusA f s) := by
  unfold loadStatusA
  dsimp only
  split_ifs <;> exact h

/-- Every instruction's meaning keeps the engine's invariant: the data words light points, the others leave the engine
as it is. -/
theorem exec_engineOk {s : State} (h : EngineOk s) (i : Instr) : Ensures EngineOk (exec i s) := by
  cases i with
  | charData f | bsvectData f => exact .next (engineOk_execPair h ..)
  | svectData f | lvectData f | absvecData f =>
    exact .next (engineOk_assemble h _ (fun _ _ hs => engineOk_vecItem hs ..) _)
  | pointData f | offsetData f => exact .next (engineOk_assemble h _ engineOk_pointModeItem _)
  | graphxData f | graphyData f | relpointData f =>
    exact .next (engineOk_assemble h _ (fun _ _ hs => engineOk_pointItem hs ..) _)
  | circleData f => exact .next (engineOk_assemble h _ (fun _ _ hs => engineOk_arcItem hs ..) _)
  | ldnr name =>
    rw [exec_ldnr, execLdnr]
    dsimp only
    split <;> exact .next h
  | lsra f => exact .next (engineOk_loadStatusA h f)
  | dstop => exact .next (engineOk_loadStatusA h dstopFields)
  | djsrRel disp => exact .next (engineOk_callSub h _)
  | dpopNr ign => exact .next (engineOk_pop h false)
  | dpopR ign => exact .next (engineOk_pop h true)
  | _ => exact .next h

theorem execRow_engineOk {s : State} (h : EngineOk s) (r : EncRow) (ws : List Word) :
    Ensures EngineOk (execRow r ws s) := by
  obtain ⟨x, hx⟩ | ⟨-, x, hx⟩ | ⟨-, x, hx⟩ | hx := execRow_cases r ws s <;> rw [hx]
  · exact .next h
  · exact .next (engineOk_callSub h _)
  · exact .next h
  · exact exec_engineOk h _

theorem execOperand_engineOk {s : State} (h : EngineOk s) (k : CtlPend) (w : Word) :
    Ensures EngineOk (execOperand k w s) := by
  cases k with
  | djmpAbs | lassoc => exact .next h
  | djsrAbs => exact .next (engineOk_callSub h _)
  | held first =>
    unfold execOperand
    dsimp only
    split
    · exact execRow_engineOk h _ _
    · exact .next h

theorem execWord_engineOk {s : State} (h : EngineOk s) (w : Word) : Ensures EngineOk (execWord w s) := by
  unfold execWord
  split
  · exact exec_engineOk h _
  · split_ifs
    · split
      · exact .next h
      · split_ifs
        · exact .next h
        · exact execRow_engineOk h _ _
    · exact exec_engineOk h _

theorem dispatchWord_engineOk {s : State} (h : EngineOk s) (w : Word) : Ensures EngineOk (dispatchWord w s) := by
  unfold dispatchWord
  split
  · exact execOperand_engineOk (s := { s with ctlPend := none }) h _ w
  · exact execWord_engineOk h w

/-! ## The cycle -/

/-- The sample moves the pen, of which the invariant says nothing (R76). -/
theorem engineOk_sample {s : State} (h : EngineOk s) (inp : CycleIn) : EngineOk (sample inp s) := by
  unfold sample sampleTip
  dsimp only
  split_ifs <;> exact h

theorem engineOk_check {s : State} (h : EngineOk s) : EngineOk (check s) := by
  rw [check_eq]
  exact h

theorem cycleKeeps_engineOk : CycleKeeps EngineOk where
  sample inp _ h := engineOk_sample h inp
  countCycle _ h := h
  clipStep c _ h _ := engineOk_clipStep h c
  halfStep k _ h _ := engineOk_halfStep h k
  fetchTimeout _ h := h
  dispatchWord w s h := dispatchWord_engineOk (s := advanceDpc s) h w
  check _ h := engineOk_check h
  age e _ h := phosphorOk_age h e

/-! ## The host's operations -/

theorem engineOk_setDpc {s : State} (h : EngineOk s) (v : Word) : EngineOk (setDpc v s) := by
  unfold setDpc
  split
  · unfold resume
    dsimp only
    split
    · next r _ => exact engineOk_drawRemainder (s := { s with flags := clearReason r (clearStops s.flags) }) h
    · exact h
  · exact h

/-- The engine that `Init` sets up for a legal profile meets the invariant: its grid is dark (R147). -/
theorem phosphorOk_initPhosphor {p : Profile} (hp : p.legal = true) {scale : Nat} (hscale : 1 ≤ scale) :
    PhosphorOk (initPhosphor p scale) := by
  refine ⟨hp, hscale, rfl, .nil, fun k => ?_, fun k => Nat.zero_le _, .nil, fun k hk => ?_⟩
  · exact iff_of_false List.not_mem_nil (Nat.lt_irrefl 0)
  · exact absurd hk List.not_mem_nil

/-- A failed `Init` keeps the engine's grid; a successful one selects a profile of the parameters (R147). -/
theorem engineOk_initEngine {s : State} (h : EngineOk s) (hlegal : s.cfg.legal = true) (name scale : Nat) :
    EngineOk (initEngine name scale s) := by
  have hprofiles : ∀ p ∈ s.cfg.profiles, p.legal = true := by
    simp only [Params.legal, Bool.and_eq_true, List.all_eq_true] at hlegal
    exact hlegal.1.2
  unfold initEngine
  split
  · exact h
  · next p hp =>
    split_ifs with hscale
    · exact h
    · exact h
    · exact phosphorOk_initPhosphor (hprofiles p (List.mem_of_find?_eq_some hp)) (Nat.le_of_not_lt hscale)

theorem engineOk_vs60Write {s t : State} (h : EngineOk s) (ht : EngineOk t) : EngineOk (vs60Write s t) := by
  unfold vs60Write
  split
  · exact ht
  · exact h

/-- A write of a register but the DPC leaves the engine as it is (R86). -/
theorem engineOk_hostWrite {s : State} (h : EngineOk s) (i : Fin 16) (v : Word) : EngineOk (hostWrite i v s) := by
  unfold hostWrite
  split
  case h_1 => exact engineOk_setDpc h v
  case h_3 =>
    unfold writeXPosition
    split <;> exact h
  case h_4 =>
    unfold writeYPosition
    split <;> exact h
  case h_10 =>
    unfold writeColor
    split <;> exact h
  case h_2 | h_6 | h_11 | h_12 => exact h
  all_goals exact engineOk_vs60Write h h

theorem hostStep_engineOk {s : State} (h : EngineOk s) (hlegal : s.cfg.legal = true) (op : HostOp) :
    Ensures EngineOk (hostStep op s) := by
  cases op with
  | cycle inp => exact cycleKeeps_engineOk.cycle inp h
  | setDpc v => exact .next (engineOk_setDpc h v)
  | hostWrite i v => exact .next (engineOk_hostWrite h i v)
  | hostRead i | reset | store a w => exact .next h
  | extStop =>
    refine .next ?_
    unfold extStop
    split <;> exact h
  | init name scale => exact .next (engineOk_initEngine h hlegal name scale)

/-- Settles O59: the operation of the step keeps the invariant. -/
theorem stepKeepsThePhosphorInvariant : Obligations.StepKeepsThePhosphorInvariant := by
  intro s t hlegal h
  refine step_ensures (P := EngineOk) (fun _ => ?_) (fun op rest _ => ?_) t
  · exact cycleKeeps_engineOk.cycle (s := { s with out := [] }) _ h
  · exact hostStep_engineOk (s := { s with out := [], todo := rest }) h hlegal op

end Sys2Proof.Machine

/-! PROOFS. O9: every instruction and every operation answers a next state; of all steps only a cycle before an `Init`
has succeeded is refused (R147, R163). -/

namespace Sys2Proof.Machine

/-- The result is a next state. -/
def Answers (r : Result) : Prop := ∃ t, r = .next t

theorem Answers.next (s : State) : Answers (.next s) := ⟨s, rfl⟩

theorem Answers.thenDo {r : Result} (h : Answers r) (f : State → State) : Answers (thenDo r f) := by
  obtain ⟨t, rfl⟩ := h
  exact .next (f t)

/-- No instruction is without a meaning (R163). -/
theorem exec_answers (i : Instr) (s : State) : Answers (exec i s) := by
  cases i with
  | ldnr name =>
    rw [exec_ldnr, execLdnr]
    dsimp only
    split <;> exact .next _
  | _ => exact .next _

theorem execRow_answers (r : EncRow) (ws : List Word) (s : State) : Answers (execRow r ws s) := by
  obtain ⟨x, hx⟩ | ⟨-, x, hx⟩ | ⟨-, x, hx⟩ | hx := execRow_cases r ws s <;> rw [hx]
  · exact .next _
  · exact .next _
  · exact .next _
  · exact exec_answers _ s

theorem dispatchWord_answers (w : Word) (s : State) : Answers (dispatchWord w s) := by
  unfold dispatchWord
  split
  · next k _ =>
    cases k with
    | djmpAbs | djsrAbs | lassoc => exact .next _
    | held first =>
      unfold execOperand
      dsimp only
      split
      · exact execRow_answers _ _ _
      · exact .next _
  · unfold execWord
    split
    · exact exec_answers _ s
    · split_ifs
      · split
        · exact .next _
        · split_ifs
          · exact .next _
          · exact execRow_answers _ _ s
      · exact exec_answers _ s

theorem work_answers (timeout : Bool) (s : State) : Answers (work timeout s) := by
  unfold work
  split
  · split
    · exact .next _
    · split
      · exact .next _
      · cases timeout with
        | true => exact .next _
        | false => exact dispatchWord_answers ..
  · exact .next _

theorem cycle_answers (inp : CycleIn) {s : State} (h : s.ph.ready = true) : Answers (cycle inp s) := by
  unfold cycle
  rw [if_pos h]
  dsimp only
  split
  · exact (work_answers ..).thenDo _
  · exact .next _

theorem cycle_refused (inp : CycleIn) {s : State} (h : s.ph.ready = false) :
    cycle inp s = .refused .notInitialized := by
  unfold cycle
  rw [h]
  rfl

theorem hostStep_answers (op : HostOp) (s : State) (h : s.ph.ready = true ∨ ∀ inp, op ≠ .cycle inp) :
    Answers (hostStep op s) := by
  cases op with
  | cycle inp => exact cycle_answers inp (h.resolve_right fun hno => hno inp rfl)
  | setDpc v | hostWrite i v | hostRead i | extStop | reset | init name scale | store a w => exact .next _

/-- A step with nothing listed is a cycle on free inputs (R74; log 3). -/
theorem step_of_nil {s : State} (h : s.todo = []) :
    step s = cycle (Config.freeInput s.tick) { s with out := [] } := by
  unfold step transition
  rw [h]

/-- Settles O9: by the kind of the step, a cycle on free inputs, a cycle listed, or another operation. -/
theorem stepsAnswerUnlessUninitialized : Obligations.StepsAnswerUnlessUninitialized := by
  refine fun s => ⟨fun h => ?answers, fun ⟨hnot, hcycle⟩ => ?refused⟩
  case answers =>
    cases htodo : s.todo with
    | nil =>
      rw [step_of_nil htodo]
      refine cycle_answers _ (h.resolve_right ?_)
      rintro ⟨op, rest, hop, -⟩
      rw [htodo] at hop
      cases hop
    | cons op rest =>
      rw [step_of_todo htodo]
      refine hostStep_answers op _ (h.imp_right ?_)
      rintro ⟨op', rest', hop, hno⟩
      rw [htodo] at hop
      obtain ⟨rfl, -⟩ := List.cons.inj hop
      exact hno
  case refused =>
    obtain htodo | ⟨inp, rest, htodo⟩ := hcycle
    · rw [step_of_nil htodo]
      exact cycle_refused _ hnot
    · rw [step_of_todo htodo]
      exact cycle_refused inp hnot

end Sys2Proof.Machine

/-! PROOFS. O45 and O47: which request the check takes (R156 to R159), and a fetch that times out, before and after its
RESUME (R77, R161). -/

namespace Sys2Proof.Machine

/-! ## The request taken -/

/-- A latched reason with none latched above it in the table is the highest request (R156, R157). -/
theorem highest_of_reasonTable {p : Pend} {k : Nat} {r : Reason} {c : NotifyClass}
    (hk : reasonTable[k]? = some (r, c)) (hlatched : pendGet p r = true)
    (habove : ∀ j q d, j < k → reasonTable[j]? = some (q, d) → pendGet p q = false) : highest p = some r := by
  have horder : priorityOrder = reasonTable.map Prod.fst := rfl
  obtain ⟨hlt, hentry⟩ := List.getElem?_eq_some_iff.1 hk
  rw [highest, horder, List.find?_eq_some_iff_getElem]
  refine ⟨hlatched, k, by simpa using hlt, by simp [hentry], fun j hj => ?_⟩
  have hnot := habove j _ _ hj (List.getElem?_eq_getElem (hj.trans hlt))
  simpa using hnot

/-- Each reason stands in the table with its class (R158). -/
theorem notifyClass_of_mem_reasonTable : ∀ e ∈ reasonTable, notifyClass e.1 = e.2 := by decide

theorem silentStop_iff (r : Reason) (s : State) :
    silentStop r s = true ↔ (r = .internalStop ∨ r = .externalStop) ∧ s.regs.stopIntrEna = false := by
  simp [silentStop]

/-- Settles O45: the table is the priority order with each reason's class. -/
theorem checkTakesTheHighestRequest : Obligations.CheckTakesTheHighestRequest := by
  refine fun s => ⟨check_of_noPend s, fun k r c hk hlatched habove => ?_⟩
  have hclass : notifyClass r = c := notifyClass_of_mem_reasonTable (r, c) (List.mem_of_getElem? hk)
  rw [check_of_highest s r (highest_of_reasonTable hk hlatched habove), takeInterrupt_eq, hclass]
  simp only [silentStop_iff]

/-! ## A fetch that times out -/

/-- With nothing latched before, a timed-out fetch is at once reported and waited for (R77, R157, R161). -/
theorem check_fetchTimeout {s : State} (h : s.pend = noPend) :
    check (fetchTimeout s) = { s with
      flags := { s.flags with timeOut := true }, run := .awaitResume .busTimeout,
      out := .notify .charFault :: s.out } := by
  have hhighest : highest (fetchTimeout s).pend = some .busTimeout := by
    rw [fetchTimeout_pend, h]
    rfl
  have hcleared : pendSet (fetchTimeout s).pend .busTimeout false = s.pend := by
    rw [fetchTimeout_pend, h]
    rfl
  rw [check_of_highest _ _ hhighest, takeInterrupt_eq, hcleared]
  rfl

/-- Aging leaves a wait for a reason (R150, R153). -/
theorem age_of_awaitResume (e : Nat) {s : State} {r : Reason} (h : s.run = .awaitResume r) :
    age e s = { s with ph := { s.ph with clock := s.ph.clock + e, cells := (age e s).ph.cells,
                                         queue := (age e s).ph.queue },
                       out := (age e s).out } := by
  have hrun : (if s.run = .awaitSync ∧ s.syncTarget ≤ s.ph.clock + e then .running else s.run) = s.run :=
    if_neg (by simp [h])
  conv_lhs => rw [age_eq, hrun]

/-- A RESUME after a timed-out fetch clears its flag and runs; whatever light-pen remainder it draws, the fetch
position, the item's words and the operand awaited stay (R83, R161). -/
theorem resume_of_busTimeout {t : State} (h : t.run = .awaitResume .busTimeout) :
    (resume t).run = .running ∧ (resume t).dpc = t.dpc ∧ (resume t).acc = t.acc ∧
      (resume t).ctlPend = t.ctlPend ∧ (resume t).flags.timeOut = false := by
  rw [resume_of_waiting t _ h, drawn_drawRemainder { t with flags := clearReason .busTimeout (clearStops t.flags) }]
  exact ⟨rfl, rfl, rfl, rfl, rfl⟩

/-- The sample of a Running machine that reports no change of the tip switch latches nothing (R76). -/
theorem sample_of_no_tip_report {s : State} (inp : CycleIn) (hrun : s.run = .running)
    (htip : inp.tip = s.flags.tipSw ∨ s.P.lpIntrEna = false ∨ s.regs.cons0 = false) :
    sample inp s = { s with
      blinkOn := inp.blinkOn, flags := { s.flags with tipSw := inp.tip },
      ph := { s.ph with penX := inp.mouseX * s.ph.scale, penY := inp.mouseY * s.ph.scale } } := by
  have hquiet : false = (inp.tip != s.flags.tipSw && s.P.lpIntrEna && s.regs.cons0) := by
    rcases htip with h | h | h <;> simp [h]
  rw [sample_of_running inp hrun hquiet, Bool.or_false, Bool.or_false]

/-- A step whose fetch times out, `u` the state after its sample (R75, R77, R161). -/
theorem step_of_timedOutFetch {s u : State} {inp : CycleIn} {rest : List HostOp} (htodo : s.todo = .cycle inp :: rest)
    (hready : s.ph.ready = true) (hrun : s.run = .running) (htime : inp.timeout = true)
    (hu : countCycle (sample inp { s with todo := rest, out := [] }) = u)
    (hpend : u.pend = noPend) (hhalf : u.pendHalf = none) (hclip : u.clipPend = none) :
    step s = .next (age inp.elapsed { u with
      flags := { u.flags with timeOut := true }, run := .awaitResume .busTimeout,
      out := .notify .charFault :: u.out }) := by
  rw [step_of_running_cycle htodo hready hrun, hu, work_of_fetch _ hpend hclip hhalf, htime,
    ← check_fetchTimeout hpend]
  rfl

/-- Settles O47: the sample latches nothing, so that the cycle fetches, and the check takes the timeout's request. -/
theorem timedOutFetchCanBeRetried : Obligations.TimedOutFetchCanBeRetried := by
  intro s inp rest htodo hready hrun hpend hhalf hclip htime htip
  have hsampled := congrArg countCycle (sample_of_no_tip_report (s := { s with todo := rest, out := [] }) inp hrun htip)
  have hstep := step_of_timedOutFetch htodo hready hrun htime hsampled hpend hhalf hclip
  refine ⟨_, _, _, hstep.trans (congrArg _ (age_of_awaitResume inp.elapsed rfl)), age_notices .., fun t ht => ?_⟩
  obtain rfl := Host.Outcome.next.inj (hstep.symm.trans ht)
  rw [age_of_awaitResume inp.elapsed rfl]
  exact resume_of_busTimeout rfl

end Sys2Proof.Machine

/-! PROOFS. O53 and O60: Reset gives the interpreter's registers their reset values, and what it leaves meets the
invariants whatever the state was before (R172, R174); of the frames and the engine, which it does not touch, the state
after the boot sequence holds zero and a dark grid (logs 5, 10). -/

namespace Sys2Proof.Machine

/-! ## Reset from any state -/

/-- The host's Reset is `resetCore` (R74, R172). -/
theorem step_of_reset {s : State} {rest : List HostOp} (h : s.todo = .reset :: rest) :
    step s = .next (resetCore { s with out := [], todo := rest }) := step_of_todo h

/-- Settles O53: the state that `resetCore` makes, written out. -/
theorem resetGivesTheStatedValues : Obligations.ResetGivesTheStatedValues := by
  intro s rest htodo
  rw [step_of_reset htodo]
  rfl

/-! ## What Reset leaves meets the invariants -/

/-- Address 0 is the address of a word in every address space (R19). -/
theorem wordAddr_zero (c : Params) : WordAddr c 0 := ⟨rfl, addrSpace_pos c⟩

/-- Every mode has an item of at least one word, under the spec's encoding and under a replaced one (R51; log 18). -/
theorem longestItem_pos (e : Encoding) (m : Mode) : 0 < longestItem e m := by
  cases e with
  | spec => cases m <;> decide
  | table t => simp [longestItem, ItemFormat.length]

/-- Reset sets the DPC and the relocation to 0; the saved DPCs are as they were (R172; log 10). -/
theorem aligned_resetCore {s : State} (hframes : ∀ i : Fin 8, WordAddr s.cfg (s.stk[i.val]).dpc) :
    Aligned (resetCore s) := ⟨wordAddr_zero s.cfg, wordAddr_zero s.cfg, hframes⟩

/-- Reset drops the words of a partial item and the held half (R172). -/
theorem itemOk_resetCore (s : State) : ItemOk (resetCore s) :=
  ⟨longestItem_pos s.cfg.encoding s.cfg.resetParams.mode, fun _ hhalf => nomatch hhalf⟩

/-- Reset drops the undrawn pixels and every request (R172). -/
theorem waitsOk_resetCore (s : State) : WaitsOk (resetCore s) := ⟨fun hcont => absurd rfl hcont, fun _ => rfl⟩

/-- The VT11 resets to a mode it has; all else of the VS60 is put to its reset value (R2, R172). -/
theorem vt11Confined_resetCore {s : State} (hlegal : s.cfg.legal = true) : Vt11Confined (resetCore s) := by
  intro (hvariant : s.cfg.variant = .vt11)
  have hmode : modeOnVt11 s.cfg.resetParams.mode = true := by
    simpa [Params.legal, hvariant] using (Bool.and_eq_true_iff.1 hlegal).2
  simp [resetCore, resetRegs, noFlags, noPend, hmode]

/-! ## The state after the boot sequence -/

/-- A Reset changes nothing of the state after reset, so that it meets what every Reset's state meets (R172, R174). -/
theorem resetCore_reset : resetCore State.reset = State.reset := rfl

theorem legal_reset : State.reset.cfg.legal = true := by decide

/-- A frame never written holds the DPC 0 (log 10). -/
theorem aligned_reset : Aligned State.reset := by
  rw [← resetCore_reset]
  refine aligned_resetCore fun i => ?_
  have hframe : State.reset.stk[i.val] = resetFrame := Vector.getElem_replicate i.isLt
  rw [hframe]
  exact wordAddr_zero _

/-- Settles O60: the state after reset is its own Reset, its memory lists nothing, and its engine is that of a
successful `Init` of a legal profile (R147; log 5). -/
theorem resetMeetsTheInvariants : Obligations.ResetMeetsTheInvariants :=
  ⟨legal_reset, memory_nil_wf defaultParams, aligned_reset, itemOk_resetCore State.reset, waitsOk_resetCore State.reset,
    vt11Confined_resetCore (s := State.reset) legal_reset, phosphorOk_initPhosphor (by decide) (Nat.le_refl 1),
    fun _ hlegal => vt11Confined_resetCore hlegal⟩

end Sys2Proof.Machine

/-! PROOFS. How a property is carried through a cycle whose unit of work begins and ends with properties of its own: the
kinds of work (R75), the kinds of a fetched word's meaning (R77), and what the sample, an `Init` and a write of a device
register leave unchanged. -/

namespace Sys2Proof.Machine

/-! ## The mode of a data word -/

/-- The mode whose items an instruction's word belongs to, where it is a graphic-data word (R69). -/
def dataMode (i : Instr) : Option Mode :=
  match i with
  | .charData _ => some .char
  | .svectData _ => some .svect
  | .lvectData _ => some .lvect
  | .pointData _ | .offsetData _ => some .point
  | .graphxData _ => some .graphx
  | .graphyData _ => some .graphy
  | .relpointData _ => some .relpoint
  | .bsvectData _ => some .bsvect
  | .circleData _ => some .circle
  | .absvecData _ => some .absvec
  | _ => none

/-- A control instruction is in no mode (R49). -/
theorem dataMode_of_isControl {i : Instr} (h : isControl i = true) : dataMode i = none := by
  cases i with
  | charData f | svectData f | lvectData f | pointData f | offsetData f | graphxData f | graphyData f
  | relpointData f | bsvectData f | circleData f | absvecData f => cases h
  | _ => rfl

/-- The mode selects the data word (R69). -/
theorem dataMode_decodeData (ctx : DecodeCtx) (w : Word) : dataMode (decodeData ctx w) = some ctx.mode := by
  unfold decodeData
  cases ctx.mode with
  | point => dsimp only; split <;> rfl
  | _ => rfl

/-- A replaced table leaves the choice of the data word to the mode (R5, R69). -/
theorem dataMode_decodeTableData (t : EncTable) (ctx : DecodeCtx) (w : Word) :
    dataMode (decodeTableData t ctx w) = some ctx.mode := dataMode_decodeData _ w

/-- A decoded word is in the current mode or in none (R49, R69). -/
theorem dataMode_decode (ctx : DecodeCtx) (w : Word) (m : Mode) (h : dataMode (decode ctx w) = some m) :
    m = ctx.mode := by
  cases hbit : bit w 15 with
  | true =>
    rw [dataMode_of_isControl ((isControl_decode ctx w).trans hbit)] at h
    cases h
  | false =>
    have hdata : decode ctx w = decodeData ctx w := if_neg (ne_true_of_eq_false hbit)
    rw [hdata, dataMode_decodeData] at h
    exact (Option.some.inj h).symm

/-- A table's rows name control instructions (R5, R50). -/
theorem dataMode_rowInstr (r : EncRow) (ws : List Word) : dataMode (rowInstr r ws) = none := by
  unfold rowInstr
  cases r.op <;> rfl

/-! ## The meaning of a fetched word -/

/-- What every kind of meaning that a fetched word can have does to a state with the property `P`, so that the next
state has the property `Q` (R77; log 18). -/
structure WordYields (P Q : State → Prop) : Prop where
  nothing : ∀ s, P s → Q s
  ctlPend : ∀ c s, P s → P { s with ctlPend := c }
  jumpAbs : ∀ a s, P s → Q (jumpAbs a s)
  callAbs : ∀ a s, P s → Q (callAbs a s)
  loadAssoc : ∀ n s, P s → Q (loadAssoc n s)
  hang : ∀ s, P s → Q (hang s)
  exec : ∀ i s, P s → (∀ m, dataMode i = some m → m = s.P.mode) → Ensures Q (exec i s)

section
variable {P Q : State → Prop} (h : WordYields P Q) {s : State} (hs : P s)
include h hs

theorem WordYields.execRow (r : EncRow) (ws : List Word) : Ensures Q (execRow r ws s) := by
  obtain ⟨x, hx⟩ | ⟨-, x, hx⟩ | ⟨-, x, hx⟩ | hx := execRow_cases r ws s <;> rw [hx]
  · exact .next (h.jumpAbs x s hs)
  · exact .next (h.callAbs x s hs)
  · exact .next (h.loadAssoc x s hs)
  · refine h.exec _ s hs fun m hm => ?_
    rw [dataMode_rowInstr] at hm
    cases hm

theorem WordYields.execOperand (k : CtlPend) (w : Word) : Ensures Q (execOperand k w s) := by
  cases k with
  | djmpAbs => exact .next (h.jumpAbs _ s hs)
  | djsrAbs => exact .next (h.callAbs _ s hs)
  | lassoc => exact .next (h.loadAssoc _ s hs)
  | held first =>
    unfold Machine.execOperand
    dsimp only
    split
    · exact h.execRow hs _ _
    · exact .next (h.hang s hs)

theorem WordYields.execWord (w : Word) : Ensures Q (execWord w s) := by
  unfold Machine.execWord
  split
  · exact h.exec _ s hs (dataMode_decode (decodeCtx s) w)
  · split_ifs
    · split
      · exact .next (h.hang s hs)
      · split_ifs
        · exact .next (h.nothing _ (h.ctlPend _ s hs))
        · exact h.execRow hs _ _
    · refine h.exec _ s hs fun m hm => ?_
      rw [dataMode_decodeTableData] at hm
      exact (Option.some.inj hm).symm

/-- The word is the operand awaited, or it is decoded and executed (R77). -/
theorem WordYields.dispatchWord (w : Word) : Ensures Q (dispatchWord w s) := by
  unfold Machine.dispatchWord
  split
  · exact h.execOperand (h.ctlPend none s hs) _ w
  · exact h.execWord hs w

end

/-! ## The unit of work and the cycle -/

/-- The unit of work by its kinds: none, the clipped remainder, the held half, a fetch that times out, and a fetch,
which has no half held over (R75). -/
theorem work_ensures {Q : State → Prop} (timeout : Bool) {s : State} (hlatched : s.pend ≠ noPend → Q s)
    (hclip : s.pend = noPend → ∀ c, s.clipPend = some c → Q (clipStep c s))
    (hhalf : s.pend = noPend → ∀ k, s.pendHalf = some k → Q (halfStep k s))
    (htimeout : s.pend = noPend → Q (fetchTimeout s))
    (hfetch : s.pend = noPend → s.pendHalf = none → ∀ w, Ensures Q (dispatchWord w (advanceDpc s))) :
    Ensures Q (work timeout s) := by
  by_cases hpend : s.pend = noPend
  · match hc : s.clipPend, hk : s.pendHalf with
    | some c, _ =>
      rw [work_of_clipPend timeout hpend hc]
      exact .next (hclip hpend c hc)
    | none, some k =>
      rw [work_of_pendHalf timeout hpend hc hk]
      exact .next (hhalf hpend k hk)
    | none, none =>
      rw [work_of_fetch timeout hpend hc hk]
      cases timeout with
      | true => exact .next (htimeout hpend)
      | false => exact hfetch hpend hk _
  · rw [work_of_latched timeout hpend]
    exact .next (hlatched hpend)

/-- A cycle is the sample `u`, then out of Running the aging, and in Running the unit of work, after which `Q` holds,
the check and the aging (R75). -/
theorem cycle_ensures {P Q : State → Prop} {inp : CycleIn} {s u : State} (hu : countCycle (sample inp s) = u)
    (hidle : u.run ≠ .running → P (age inp.elapsed u)) (hwork : u.run = .running → Ensures Q (work inp.timeout u))
    (hdone : ∀ t, Q t → P (age inp.elapsed (check t))) : Ensures P (cycle inp s) := by
  unfold cycle
  dsimp only
  rw [hu]
  split
  · split
    · next hrun => exact (hwork hrun).thenDo hdone
    · next hrun => exact .next (hidle hrun)
  · exact .refused _

/-! ## What stays -/

/-- The sample changes the pen, the blink phase, the tip switch's flags and the requests alone (R76). -/
theorem sample_eq (inp : CycleIn) (s : State) :
    sample inp s = { s with
      blinkOn := inp.blinkOn, flags := (sample inp s).flags, pend := (sample inp s).pend,
      ph := { s.ph with penX := inp.mouseX * s.ph.scale, penY := inp.mouseY * s.ph.scale } } := by
  unfold sample sampleTip
  dsimp only
  split_ifs <;> rfl

/-- The sample of a machine that is not Running latches nothing (R76). -/
theorem sample_of_not_running (inp : CycleIn) {s : State} (h : s.run ≠ .running) :
    sample inp s = { s with
      blinkOn := inp.blinkOn, flags := { s.flags with tipSw := inp.tip },
      ph := { s.ph with penX := inp.mouseX * s.ph.scale, penY := inp.mouseY * s.ph.scale } } := by
  unfold sample sampleTip
  dsimp only
  split_ifs with htip hreport
  · rw [htip]
  · exact absurd hreport.1 h
  · rfl

/-- A RESUME changes what drawing may change, the flags and the run state alone (R83). -/
theorem resume_eq (s : State) :
    resume s = { drawnState s (resume s) with flags := (resume s).flags, run := (resume s).run } := by
  by_cases hwait : ∃ r, s.run = .awaitResume r
  · obtain ⟨r, hr⟩ := hwait
    obtain ⟨v, hv⟩ : ∃ v, drawRemainder { s with flags := clearReason r (clearStops s.flags) } =
        drawnState { s with flags := clearReason r (clearStops s.flags) } v := ⟨_, drawn_drawRemainder _⟩
    rw [resume_of_waiting s r hr, hv]
    rfl
  · rw [resume_of_not_waiting s fun r hr => hwait ⟨r, hr⟩]
    rfl

/-- `Init` sets the engine and makes a call, nothing else (R147). -/
theorem initEngine_eq (name scale : Nat) (s : State) :
    initEngine name scale s =
      { s with ph := (initEngine name scale s).ph, out := (initEngine name scale s).out } := by
  unfold initEngine
  split
  · rfl
  · split_ifs <;> rfl

/-- A write of a device register but the DPC changes the control fields, the position and the offsets alone (R86). -/
theorem hostWrite_eq {i : Fin 16} (hi : i ≠ 0) (v : Word) (s : State) :
    hostWrite i v s = { s with regs := (hostWrite i v s).regs, pos := (hostWrite i v s).pos,
                               off := (hostWrite i v s).off } := by
  have hval : i.val ≠ 0 := fun h => hi (Fin.ext h)
  unfold hostWrite writeStackAddress vs60Write writeXPosition writeYPosition writeColor
  split
  case h_1 h0 => exact absurd h0 hval
  case h_2 | h_6 | h_11 | h_12 => rfl
  all_goals split <;> rfl

end Sys2Proof.Machine

/-! PROOFS. O57: undrawn pixels wait on the hit that stopped them, and an idle machine holds no request (R29, R83, R84,
R159). Inside a cycle a hit's request is still latched beside the pixels (`Live`, `Worked`); the check, which takes the
light pen's request first (R156), turns that into the wait. -/

namespace Sys2Proof.Machine

/-- A Running machine that holds undrawn pixels only with the request of the hit that stopped them (R111). -/
structure Live (s : State) : Prop where
  run : s.run = .running
  hit : s.lpCont ≠ none → s.pend.lightPenHit = true

/-- A machine after its unit of work: undrawn pixels only with the hit's request, and no request if it stopped. -/
structure Worked (s : State) : Prop where
  hit : s.lpCont ≠ none → s.pend.lightPenHit = true
  idle : s.run = .halted ∨ s.run = .hung → s.pend = noPend

/-- A Running machine with nothing latched and nothing undrawn, as it is when it fetches. -/
structure Ready (s : State) : Prop where
  run : s.run = .running
  pend : s.pend = noPend
  lpCont : s.lpCont = none

theorem Live.worked {s : State} (h : Live s) : Worked s where
  hit := h.hit
  idle hidle := by rw [h.run] at hidle; simp at hidle

theorem Ready.live {s : State} (h : Ready s) : Live s := ⟨h.run, fun hcont => absurd h.lpCont hcont⟩

/-! ## Drawing -/

theorem Live.illuminate {s : State} (h : Live s) (x y : Int) (i : BitVec 3) (c : BitVec 1) :
    Live (illuminate x y i c s).1 := by
  rw [illuminate_eq]
  exact { h with }

/-- A hit latches its request, so that pixels may be left undrawn beside it (R111). -/
theorem Live.stopped {s : State} (h : Live s) (q : Pt3) (c : Option Cont) :
    Live { lightPenHit q s with lpCont := c } := ⟨h.run, fun _ => rfl⟩

theorem Live.lightPenHit {s : State} (h : Live s) (q : Pt3) : Live (lightPenHit q s) := h.stopped q s.lpCont

theorem Live.edgeEvent {s : State} (h : Live s) (q : Pt3) (isExit : Bool) : Live (edgeEvent q isExit s) := { h with }

theorem Live.drawRun {s : State} (h : Live s) (exit : Option Pt3) (masked : Bool) (run : List Pixel) :
    Live (drawRun exit masked run s) := by
  induction run generalizing s with
  | nil =>
    cases exit with
    | none => exact h
    | some q => exact h.edgeEvent q true
  | cons p rest ih =>
    have hlit := h.illuminate p.x p.y p.i p.c
    unfold Machine.drawRun
    dsimp only
    split
    · exact hlit.stopped _ _
    · exact ih hlit

theorem Live.segment {s : State} (h : Live s) (p0 p1 : Pt3) (i : Bool) : Live (segment p0 p1 i s) := by
  have hclip (q : Pt3) (c : Option Cont) : Live { Machine.edgeEvent q false s with clipPend := c } := { h with }
  unfold Machine.segment
  split
  · exact h
  · dsimp only
    split
    · exact h.drawRun ..
    · exact h.drawRun ..
    all_goals
      split
      · exact hclip _ _
      · exact h.drawRun ..

theorem Live.moveTo {s : State} (h : Live s) (p : Pt3) : Live (moveTo p s) := { h with }

theorem Live.vecItem {s : State} (h : Live s) (p : Pt3) (i : Bool) : Live (vecItem p i s) := (h.moveTo p).segment ..

theorem Live.pointItem {s : State} (h : Live s) (p : Pt3) (i : Bool) : Live (pointItem p i s) := by
  unfold Machine.pointItem
  dsimp only
  split
  · exact (h.moveTo p).drawRun ..
  · exact h.moveTo p

theorem Live.arcItem {s : State} (h : Live s) (dc de : Pt3) (i : Bool) : Live (arcItem dc de i s) :=
  (h.moveTo _).drawRun ..

theorem Live.clipStep {s : State} (h : Live s) (c : Cont) : Live (clipStep c s) :=
  Live.drawRun (s := { s with clipPend := none }) { h with } ..

/-! ## Characters -/

theorem Live.lightGlyph {s : State} (h : Live s) (run : List Pixel) (first : Option Pt3) :
    Live (lightGlyph run first s).1 := by
  induction run generalizing first s with
  | nil => exact h
  | cons p rest ih => exact ih (h.illuminate p.x p.y p.i p.c) _

theorem Live.glyphDraw {s : State} (h : Live s) (pts : List Pt3) : Live (glyphDraw pts s) := by
  unfold Machine.glyphDraw
  dsimp only
  split
  · exact h.lightGlyph ..
  · exact (h.lightGlyph ..).lightPenHit _

theorem Live.charCrossing {s : State} (h : Live s) (o o' : Pt3) : Live (charCrossing o o' s) := by
  unfold Machine.charCrossing
  split
  · exact h.edgeEvent ..
  · exact h

theorem Live.printCode {s : State} (h : Live s) (draw : Bool) (set : CharSet) (b : BitVec 7) :
    Live (printCode draw set b s) := by
  have hmoved := h.moveTo (advanced s)
  unfold Machine.printCode glyph faultedGlyph
  dsimp only
  split_ifs
  · exact hmoved.glyphDraw _
  · exact hmoved.charCrossing ..
  · exact hmoved.charCrossing ..
  · exact hmoved

theorem Live.charCode {s : State} (h : Live s) (draw : Bool) (b : BitVec 7) : Live (charCode draw b s) := by
  unfold Machine.charCode
  split_ifs
  · exact h.moveTo _
  · exact h.moveTo _
  · exact h.moveTo _
  · exact { h with }
  · exact { h with }
  · exact h.printCode ..
  · exact h
  · exact h.printCode ..

theorem Live.charFaultItem {s : State} (h : Live s) (b : BitVec 7) : Live (charFaultItem b s) :=
  Live.charCode (s := Machine.moveTo s.pos (raise .charFault { s with flags := { s.flags with charFault := true } }))
    { h with } ..

/-! ## The stack -/

theorem Live.pop {s : State} (h : Live s) (restore : Bool) : Live (pop restore s) := by
  by_cases hframe : s.sp.val < 8
  · rw [pop_of_frame restore s hframe]
    cases restore <;> exact { h with }
  · rw [pop_eq_of_empty restore s hframe]
    exact { h with }

theorem Live.callSub {s : State} (h : Live s) (target : Nat) : Live (callSub target s) := by
  by_cases hfull : s.sp = 0
  · rw [callSub_of_full target s hfull]
    exact { h with }
  · rw [callSub_of_room target s (Fin.pos_iff_ne_zero.2 hfull)]
    exact { h with }

/-! ## The data words -/

theorem Live.charItem {s : State} (h : Live s) (b : BitVec 7) : Live (charItem b s).1 := by
  unfold Machine.charItem
  split_ifs
  · exact h.pop true
  · exact h.charFaultItem b
  · exact h.charCode true b

theorem Live.pairItem {s : State} (h : Live s) (k : PairKind) (b : BitVec 7) : Live (pairItem k b s).1 := by
  cases k with
  | char => exact h.charItem b
  | bsvect => exact h.vecItem ..

theorem Live.execPair {s : State} (h : Live s) (k : PairKind) (b0 b1 : BitVec 7) : Live (execPair k b0 b1 s) := by
  have hfirst := h.pairItem k b0
  unfold Machine.execPair
  dsimp only
  split_ifs
  · exact hfirst
  · exact hfirst.pairItem k b1
  · exact { hfirst with }

theorem Live.halfStep {s : State} (h : Live s) (k : Half) : Live (halfStep k s) :=
  Live.pairItem (s := { s with pendHalf := none }) { h with } ..

theorem Live.pointModeItem {s : State} (h : Live s) (ws : List Word) : Live (pointModeItem ws s) := by
  unfold Machine.pointModeItem
  split
  · exact { h with }
  · exact h.pointItem ..

theorem Live.assemble {s : State} (h : Live s) (m : Mode) {item : List Word → State → State}
    (hitem : ∀ {u}, Live u → ∀ ws, Live (item ws u)) (w : Word) : Live (assemble m item w s) := by
  obtain hkept | ⟨ws, hrun⟩ := assemble_cases m item w s
  · rw [hkept]
    exact { h with }
  · rw [hrun]
    exact hitem (u := { s with acc := [] }) { h with } ws

/-! ## The control instructions and the fetched word -/

theorem Live.loadStatusA {s : State} (h : Live s) (f : LsraFields) : Worked (loadStatusA f s) := by
  have hloads : Live (lsraLoads f s) := { h with }
  unfold Machine.loadStatusA
  dsimp only
  split_ifs
  · exact Live.worked { hloads with }
  · exact hloads.worked
  · exact ⟨h.hit, fun hidle => by simp at hidle⟩

/-- An unrecognized opcode hangs a machine that has nothing latched, as none is fetched otherwise (R75, R105). -/
theorem Ready.hang {s : State} (h : Ready s) : Worked (hang s) :=
  ⟨fun hcont => absurd h.lpCont hcont, fun _ => h.pend⟩

theorem Ready.exec {s : State} (h : Ready s) (i : Instr) : Ensures Worked (exec i s) := by
  have hlive := h.live
  cases i with
  | ldnr name =>
    rw [exec_ldnr, execLdnr]
    dsimp only
    split <;> exact .next (Live.worked { hlive with })
  | lsra f => exact .next (hlive.loadStatusA f)
  | dstop => exact .next (hlive.loadStatusA dstopFields)
  | djsrRel disp => exact .next (hlive.callSub _).worked
  | dpopNr ign => exact .next (hlive.pop false).worked
  | dpopR ign => exact .next (hlive.pop true).worked
  | illegalSub5 low | illegalSub6 low | illegalSub7 low | illegalOp7 low | illegalOp8 low | illegalOp9 low
  | illegalOp10 low | illegalOp11 low => exact .next h.hang
  | charData f | bsvectData f => exact .next (hlive.execPair ..).worked
  | svectData f | lvectData f | absvecData f =>
    exact .next (hlive.assemble _ (fun hu _ => hu.vecItem ..) _).worked
  | pointData f | offsetData f => exact .next (hlive.assemble .point Live.pointModeItem _).worked
  | graphxData f | graphyData f | relpointData f =>
    exact .next (hlive.assemble _ (fun hu _ => hu.pointItem ..) _).worked
  | circleData f => exact .next (hlive.assemble .circle (fun hu _ => hu.arcItem ..) _).worked
  | _ => exact .next (Live.worked { hlive with })

theorem wordYields_worked : WordYields Ready Worked where
  nothing _ h := h.live.worked
  ctlPend _ _ h := { h with }
  jumpAbs _ _ h := Live.worked { h.live with }
  callAbs _ _ h := (h.live.callSub _).worked
  loadAssoc _ _ h := Live.worked { h.live with }
  hang _ h := h.hang
  exec i _ h _ := h.exec i

/-! ## The cycle -/

/-- The light pen's request is the highest, so that the check enters its wait where it is latched (R156, R157). -/
theorem check_of_lightPenHit {s : State} (h : s.pend.lightPenHit = true) :
    (check s).run = .awaitResume .lightPenHit := by
  have hhighest : highest s.pend = some .lightPenHit := List.find?_cons_of_pos h
  rw [check_of_highest s _ hhighest, takeInterrupt_eq]

/-- The check leaves no undrawn pixels outside their wait, and no request beside a stop (R157). -/
theorem Worked.check {s : State} (h : Worked s) : WaitsOk (check s) := by
  refine ⟨fun hcont => ?_, fun hidle => ?_⟩
  · rw [check_eq] at hcont
    exact check_of_lightPenHit (h.hit hcont)
  · by_cases hpend : s.pend = noPend
    · rw [check_of_noPend s hpend]
      exact hpend
    · obtain ⟨r, hr⟩ := Option.ne_none_iff_exists'.1 (mt (highest_eq_none_iff s.pend).1 hpend)
      rw [check_of_highest s r hr, takeInterrupt_eq] at hidle
      simp at hidle

/-- Aging ends no wait but that for frame sync, and that into Running (R150, R153). -/
theorem WaitsOk.age {s : State} (h : WaitsOk s) (e : Nat) : WaitsOk (age e s) := by
  obtain ⟨hcont, hidle⟩ := h
  rw [age_eq]
  by_cases hsync : s.run = .awaitSync ∧ s.syncTarget ≤ s.ph.clock + e
  · have hnone : s.lpCont = none := by
      by_contra hsome
      exact absurd (hsync.1.symm.trans (hcont hsome)) (by simp)
    exact ⟨fun hsome => absurd hnone hsome, fun hrun => by simp [hsync] at hrun⟩
  · simp only [if_neg hsync]
    exact ⟨hcont, hidle⟩

/-- The sample latches a request in Running alone (R76). -/
theorem WaitsOk.sample {s : State} (h : WaitsOk s) (inp : CycleIn) : WaitsOk (sample inp s) := by
  obtain ⟨hcont, hidle⟩ := h
  by_cases hrun : s.run = .running
  · rw [sample_eq]
    exact ⟨hcont, fun hstopped => by simp [hrun] at hstopped⟩
  · rw [sample_of_not_running inp hrun]
    exact ⟨hcont, hidle⟩

/-- A Running machine holds no undrawn pixels between steps. -/
theorem WaitsOk.live {s : State} (h : WaitsOk s) (hrun : s.run = .running) : s.lpCont = none ∧ Live s := by
  have hnone : s.lpCont = none := by
    by_contra hsome
    exact absurd (hrun.symm.trans (h.1 hsome)) (by simp)
  exact ⟨hnone, hrun, fun hsome => absurd hnone hsome⟩

theorem WaitsOk.work {s : State} (h : WaitsOk s) (hrun : s.run = .running) (timeout : Bool) :
    Ensures Worked (work timeout s) := by
  obtain ⟨hnone, hlive⟩ := h.live hrun
  refine work_ensures timeout (fun _ => hlive.worked) (fun _ c _ => (hlive.clipStep c).worked)
    (fun _ k _ => (hlive.halfStep k).worked) (fun _ => Live.worked { hlive with }) fun hpend _ w => ?_
  exact wordYields_worked.dispatchWord (s := advanceDpc s) ⟨hrun, hpend, hnone⟩ w

theorem WaitsOk.cycle {s : State} (h : WaitsOk s) (inp : CycleIn) : Ensures WaitsOk (cycle inp s) := by
  have hsampled : WaitsOk (countCycle (Machine.sample inp s)) := h.sample inp
  exact cycle_ensures (Q := Worked) rfl (fun _ => hsampled.age _) (fun hrun => hsampled.work hrun inp.timeout)
    fun t ht => ht.check.age _

/-! ## The host's operations -/

/-- Lighting a run leaves no pixels undrawn (R111). -/
theorem lightAll_lpCont (run : List Pixel) (s : State) : (lightAll run s).lpCont = s.lpCont := by
  induction run generalizing s with
  | nil => rfl
  | cons p rest ih =>
    have hlit : (illuminate p.x p.y p.i p.c s).1.lpCont = s.lpCont := by rw [illuminate_eq]
    exact (ih _).trans hlit

/-- A RESUME draws the rest of the primitive with the light pen masked, so that none of it is left (R83). -/
theorem drawRemainder_lpCont (s : State) : (drawRemainder s).lpCont = none := by
  unfold drawRemainder
  split
  · next hnone => exact hnone
  · next c _ =>
    rw [drawRun_masked]
    cases c.exit with
    | none => exact lightAll_lpCont ..
    | some q => exact lightAll_lpCont ..

theorem WaitsOk.resume {s : State} (h : WaitsOk s) : WaitsOk (resume s) := by
  by_cases hwait : ∃ r, s.run = .awaitResume r
  · obtain ⟨r, hr⟩ := hwait
    rw [resume_of_waiting s r hr]
    exact ⟨fun hsome => absurd (drawRemainder_lpCont _) hsome, fun hidle => by simp at hidle⟩
  · rw [resume_of_not_waiting s fun r hr => hwait ⟨r, hr⟩]
    exact h

/-- A START discards the undrawn pixels and runs (R82). -/
theorem waitsOk_start (v : Word) (s : State) : WaitsOk (start v s) :=
  ⟨fun hsome => absurd rfl hsome, fun hidle => by simp [start] at hidle⟩

theorem WaitsOk.setDpc {s : State} (h : WaitsOk s) (v : Word) : WaitsOk (setDpc v s) := by
  unfold Machine.setDpc
  split
  · exact h.resume
  · exact waitsOk_start v s

/-- ExtStop latches nothing in a machine halted or hung (R84). -/
theorem WaitsOk.extStop {s : State} (h : WaitsOk s) : WaitsOk (extStop s) := by
  rw [extStop_eq]
  split
  · exact h
  · next hlive => exact ⟨h.1, fun hidle => absurd hidle hlive⟩

theorem WaitsOk.hostWrite {s : State} (h : WaitsOk s) (i : Fin 16) (v : Word) : WaitsOk (hostWrite i v s) := by
  by_cases hi : i = 0
  · subst hi
    exact h.setDpc v
  · rw [hostWrite_eq hi]
    exact h

theorem WaitsOk.hostStep {s : State} (h : WaitsOk s) (op : HostOp) : Ensures WaitsOk (hostStep op s) := by
  cases op with
  | cycle inp => exact h.cycle inp
  | setDpc v => exact .next (h.setDpc v)
  | hostWrite i v => exact .next (h.hostWrite i v)
  | hostRead i | store a w => exact .next h
  | extStop => exact .next h.extStop
  | reset => exact .next (waitsOk_resetCore s)
  | init name scale =>
    refine .next ?_
    rw [initEngine_eq]
    exact h

/-- Settles O57: a cycle's work leaves pixels undrawn only with the hit latched, which its check then takes; of the
host's operations a RESUME draws them, and a START and a Reset drop them. -/
theorem stepKeepsContinuationsInTheirWait : Obligations.StepKeepsContinuationsInTheirWait := by
  intro s t h
  exact step_ensures (P := WaitsOk) (fun _ => WaitsOk.cycle (s := { s with out := [] }) h _)
    (fun op rest _ => WaitsOk.hostStep (s := { s with out := [], todo := rest }) h op) t

end Sys2Proof.Machine

/-! PROOFS. O56: a partly assembled item stays shorter than its mode's longest, and a held half stays in its mode (R29,
R78, R106). A word is fetched, and a held half runs, with no half held (`ItemFits`); what changes the mode then drops
the item's words. -/

namespace Sys2Proof.Machine

/-! ## The invariant by its parts -/

/-- The mode in which a two-item word is fetched (R106). -/
def pairMode (k : PairKind) : Mode :=
  match k with
  | .char => .char
  | .bsvect => .bsvect

theorem itemOk_iff (s : State) : ItemOk s ↔ s.acc.length < longestItem s.cfg.encoding s.P.mode ∧
    ∀ h, s.pendHalf = some h → s.P.mode = pairMode h.kind := by
  refine and_congr_right fun _ => forall₂_congr fun h _ => ?_
  obtain ⟨k, b⟩ := h
  cases k <;> rfl

/-- The words of an item begun are fewer than the mode's longest item has, and no half is held. -/
structure ItemFits (s : State) : Prop where
  acc : s.acc.length < longestItem s.cfg.encoding s.P.mode
  pendHalf : s.pendHalf = none

theorem ItemFits.itemOk {s : State} (h : ItemFits s) : ItemOk s :=
  (itemOk_iff s).2 ⟨h.acc, fun k hk => by rw [h.pendHalf] at hk; cases hk⟩

/-- With no half held the invariant is that the item's words fit. -/
theorem ItemOk.itemFits {s : State} (h : ItemOk s) (hhalf : s.pendHalf = none) : ItemFits s := ⟨h.1, hhalf⟩

theorem ItemFits.drawn {s t : State} (h : ItemFits s) (hd : Drawn s t) : ItemFits t := by
  obtain ⟨v, rfl⟩ : ∃ v, t = drawnState s v := ⟨t, hd⟩
  exact { h with }

theorem ItemOk.drawn {s t : State} (h : ItemOk s) (hd : Drawn s t) : ItemOk t := by
  obtain ⟨v, rfl⟩ : ∃ v, t = drawnState s v := ⟨t, hd⟩
  exact h

/-! ## The two items of a word -/

/-- A restoring pop gives back a mode with nothing assembled yet (R98, R100). -/
theorem ItemFits.pop {s : State} (h : ItemFits s) (restore : Bool) : ItemFits (pop restore s) := by
  by_cases hframe : s.sp.val < 8
  · rw [pop_of_frame restore s hframe]
    cases restore with
    | true => exact ⟨longestItem_pos _ _, h.pendHalf⟩
    | false => exact { h with }
  · rw [pop_eq_of_empty restore s hframe]
    exact { h with }

theorem ItemFits.callSub {s : State} (h : ItemFits s) (target : Nat) : ItemFits (callSub target s) := by
  by_cases hfull : s.sp = 0
  · rw [callSub_of_full target s hfull]
    exact { h with }
  · rw [callSub_of_room target s (Fin.pos_iff_ne_zero.2 hfull)]
    exact { h with }

theorem ItemFits.charCode {s : State} (h : ItemFits s) (draw : Bool) (b : BitVec 7) : ItemFits (charCode draw b s) :=
  ItemFits.drawn (s := { s with regs := { s.regs with so := (Machine.charCode draw b s).regs.so } }) { h with }
    (drawn_charCode draw b s)

theorem ItemFits.charFaultItem {s : State} (h : ItemFits s) (b : BitVec 7) : ItemFits (charFaultItem b s) :=
  ItemFits.charCode (s := moveTo s.pos (raise .charFault { s with flags := { s.flags with charFault := true } }))
    { h with } ..

theorem ItemFits.pairItem {s : State} (h : ItemFits s) (k : PairKind) (b : BitVec 7) :
    ItemFits (pairItem k b s).1 := by
  cases k with
  | char =>
    show ItemFits (charItem b s).1
    unfold charItem
    split_ifs
    · exact h.pop true
    · exact h.charFaultItem b
    · exact h.charCode true b
  | bsvect => exact h.drawn (drawn_bsvItem b s)

/-- An item that does not end the character processing leaves the parameter set (R87, R138). -/
theorem pairItem_P_of_goes {k : PairKind} {b : BitVec 7} {s : State} (h : (pairItem k b s).2 = false) :
    (pairItem k b s).1.P = s.P := by
  cases k with
  | char =>
    have hterm : terminates b s = false := by
      cases hb : terminates b s with
      | false => rfl
      | true =>
        have hends : pairItem .char b s = (pop true s, true) := charItem_of_terminates hb
        rw [hends] at h
        exact h
    obtain ⟨v, hv⟩ : ∃ v, (pairItem .char b s).1 = drawnState (charState s v) v := ⟨_, charDrawn_charItem hterm⟩
    rw [hv]
    rfl
  | bsvect => exact (drawn_bsvItem b s).P_eq

/-- The half is held where the first item has run without ending the processing, so in the mode of the word (R79). -/
theorem ItemFits.execPair {s : State} (h : ItemFits s) {k : PairKind} (hmode : s.P.mode = pairMode k)
    (b0 b1 : BitVec 7) : ItemOk (execPair k b0 b1 s) := by
  have hfirst := h.pairItem k b0
  cases hends : (Machine.pairItem k b0 s).2 with
  | true =>
    rw [execPair_of_ended b1 hends]
    exact hfirst.itemOk
  | false =>
    by_cases hpend : (Machine.pairItem k b0 s).1.pend = noPend
    · rw [execPair_of_noPend b1 hends hpend]
      exact (hfirst.pairItem k b1).itemOk
    · rw [execPair_of_latched b1 hends hpend]
      refine (itemOk_iff _).2 ⟨hfirst.acc, fun c hc => ?_⟩
      rw [← Option.some.inj hc, ← hmode]
      exact congrArg ParamSet.mode (pairItem_P_of_goes hends)

/-- The second half runs once, and is held no more (R78). -/
theorem ItemOk.halfStep {s : State} (h : ItemOk s) (k : Half) : ItemOk (halfStep k s) :=
  (ItemFits.pairItem (s := { s with pendHalf := none }) ⟨h.1, rfl⟩ k.kind k.item).itemOk

/-! ## Items of one word or more -/

/-- Z words only lengthen an item of the spec's own encoding (R51). -/
theorem itemLen_le (m : Mode) (z : Bool) : itemLen m z ≤ itemLen m true := by
  cases m <;> cases z <;> decide

/-- An item's length is one of those of its mode (R51; log 18). -/
theorem itemWords_le_longestItem (s : State) (m : Mode) (ws : List Word) :
    itemWords s m ws ≤ longestItem s.cfg.encoding m := by
  unfold itemWords longestItem
  cases s.cfg.encoding with
  | spec => exact itemLen_le m (zWords s)
  | table t =>
    dsimp only
    cases isOffsetItem s m ws <;> cases zWords s <;> omega

theorem ItemFits.pointModeItem {s : State} (h : ItemFits s) (ws : List Word) : ItemFits (pointModeItem ws s) := by
  obtain ⟨v, hv⟩ := drawn_pointModeItem ws s
  rw [hv]
  exact { h with }

/-- A word that is kept leaves the item short of whole; one that completes it leaves nothing begun (R106). -/
theorem ItemFits.assemble {s : State} (h : ItemFits s) {m : Mode} (hmode : m = s.P.mode)
    {item : List Word → State → State} (hitem : ∀ {u}, ItemFits u → ∀ ws, ItemFits (item ws u)) (w : Word) :
    ItemFits (assemble m item w s) := by
  obtain hshort | hwhole := lt_or_ge (s.acc ++ [w]).length (itemWords s m (s.acc ++ [w]))
  · rw [assemble_of_short hshort]
    have hfits := hshort.trans_le (itemWords_le_longestItem s m (s.acc ++ [w]))
    rw [hmode] at hfits
    exact ⟨hfits, h.pendHalf⟩
  · rw [assemble_of_whole hwhole]
    exact hitem (u := { s with acc := [] }) ⟨longestItem_pos _ _, h.pendHalf⟩ _

/-! ## The control instructions and the fetched word -/

/-- SGM restarts the item (R88). -/
theorem ItemFits.setGraphicMode {s : State} (h : ItemFits s) (m : Mode) (f : SgmFields) :
    ItemFits (setGraphicMode m f s) := ⟨longestItem_pos _ _, h.pendHalf⟩

theorem ItemFits.loadStatusA {s : State} (h : ItemFits s) (f : LsraFields) : ItemFits (loadStatusA f s) := by
  unfold Machine.loadStatusA
  dsimp only
  split_ifs <;> exact ⟨h.acc, h.pendHalf⟩

/-- The meaning of an instruction of the current mode or of none. -/
theorem ItemFits.exec {s : State} (h : ItemFits s) (i : Instr) (hmode : ∀ m, dataMode i = some m → m = s.P.mode) :
    Ensures ItemOk (exec i s) := by
  cases i with
  | sgmChar f | sgmSvect f | sgmLvect f | sgmPoint f | sgmGraphx f | sgmGraphy f | sgmRelpoint f | sgmBsvect f
  | sgmCircle f | sgmAbsvec f => exact .next (h.setGraphicMode _ f).itemOk
  | ldnr name =>
    rw [exec_ldnr, execLdnr]
    dsimp only
    split <;> exact .next (ItemFits.itemOk { h with })
  | lsra f => exact .next (h.loadStatusA f).itemOk
  | dstop => exact .next (h.loadStatusA dstopFields).itemOk
  | djsrRel disp => exact .next (h.callSub _).itemOk
  | dpopNr ign => exact .next (h.pop false).itemOk
  | dpopR ign => exact .next (h.pop true).itemOk
  | charData f => exact .next (h.execPair (k := .char) (hmode _ rfl).symm ..)
  | bsvectData f => exact .next (h.execPair (k := .bsvect) (hmode _ rfl).symm ..)
  | svectData f | lvectData f | absvecData f =>
    exact .next (h.assemble (hmode _ rfl) (fun hu _ => hu.drawn (drawn_vecItem ..)) _).itemOk
  | pointData f | offsetData f => exact .next (h.assemble (hmode _ rfl) ItemFits.pointModeItem _).itemOk
  | graphxData f | graphyData f | relpointData f =>
    exact .next (h.assemble (hmode _ rfl) (fun hu _ => hu.drawn (drawn_pointItem ..)) _).itemOk
  | circleData f => exact .next (h.assemble (hmode _ rfl) (fun hu _ => hu.drawn (drawn_arcItem ..)) _).itemOk
  | _ => exact .next (ItemFits.itemOk ⟨h.acc, h.pendHalf⟩)

theorem wordYields_itemOk : WordYields ItemFits ItemOk where
  nothing _ h := h.itemOk
  ctlPend _ _ h := { h with }
  jumpAbs _ _ h := ItemFits.itemOk { h with }
  callAbs _ _ h := (h.callSub _).itemOk
  loadAssoc _ _ h := ItemFits.itemOk { h with }
  hang _ h := ItemFits.itemOk { h with }
  exec i _ h hmode := h.exec i hmode

/-! ## The cycle and the host's operations -/

theorem ItemOk.cycle {s : State} (h : ItemOk s) (inp : CycleIn) : Ensures ItemOk (cycle inp s) := by
  have hage (e : Nat) {t : State} (ht : ItemOk t) : ItemOk (age e t) := by
    rw [age_eq]
    exact ht
  have hcheck {t : State} (ht : ItemOk t) : ItemOk (check t) := by
    rw [check_eq]
    exact ht
  have hsampled : ItemOk (countCycle (sample inp s)) := by
    rw [sample_eq]
    exact h
  refine cycle_ensures (Q := ItemOk) rfl (fun _ => hage _ hsampled) (fun _ => ?_) fun t ht => hage _ (hcheck ht)
  refine work_ensures inp.timeout (fun _ => hsampled) (fun _ c _ => hsampled.drawn (drawn_clipStep ..))
    (fun _ k _ => hsampled.halfStep k) (fun _ => hsampled) fun _ hhalf w => ?_
  have hfits : ItemFits (advanceDpc (countCycle (sample inp s))) := { hsampled.itemFits hhalf with }
  exact wordYields_itemOk.dispatchWord hfits w

/-- A START drops the item's words and the held half (R82). -/
theorem itemOk_start (v : Word) (s : State) : ItemOk (start v s) :=
  ItemFits.itemOk ⟨longestItem_pos _ _, rfl⟩

theorem ItemOk.setDpc {s : State} (h : ItemOk s) (v : Word) : ItemOk (setDpc v s) := by
  unfold Machine.setDpc
  split
  · rw [resume_eq]
    exact h
  · exact itemOk_start v s

theorem ItemOk.hostStep {s : State} (h : ItemOk s) (op : HostOp) : Ensures ItemOk (hostStep op s) := by
  cases op with
  | cycle inp => exact h.cycle inp
  | setDpc v => exact .next (h.setDpc v)
  | hostWrite i v =>
    refine .next ?_
    by_cases hi : i = 0
    · subst hi
      exact h.setDpc v
    · rw [hostWrite_eq hi]
      exact h
  | hostRead i | store a w => exact .next h
  | extStop =>
    refine .next ?_
    rw [extStop_eq]
    split <;> exact h
  | reset => exact .next (itemOk_resetCore s)
  | init name scale =>
    refine .next ?_
    rw [initEngine_eq]
    exact h

/-- Settles O56: a data word is decoded in the current mode, and a change of the mode restarts the item. -/
theorem stepKeepsItemsWithinTheirMode : Obligations.StepKeepsItemsWithinTheirMode := by
  intro s t h
  exact step_ensures (P := ItemOk) (fun _ => ItemOk.cycle (s := { s with out := [] }) h _)
    (fun op rest _ => ItemOk.hostStep (s := { s with out := [], todo := rest }) h op) t

end Sys2Proof.Machine

/-! PROOFS. O55: the DPC, the relocation and the saved DPCs are addresses of words (R19, R24, R25, R40). Every address
that is written is an even number wrapped into the address space (R43), or one that the machine held before. -/

namespace Sys2Proof.Machine

/-- Addresses have a bit 0, and every address that the machine holds is a word's. -/
structure AtWords (s : State) : Prop where
  bits : 1 ≤ s.cfg.addrBits
  dpc : WordAddr s.cfg s.dpc
  reloc : WordAddr s.cfg s.regs.reloc
  frames : ∀ i : Fin 8, WordAddr s.cfg (s.stk[i.val]).dpc

theorem AtWords.aligned {s : State} (h : AtWords s) : Aligned s := ⟨h.dpc, h.reloc, h.frames⟩

/-! ## The addresses that are written -/

theorem wordAddr_evenAddr {c : Params} (hc : 1 ≤ c.addrBits) (v : Word) : WordAddr c (evenAddr c v) := by
  refine wordAddr_wrapAddr c _ hc ?_
  have heven : (v &&& 0xFFFE).toNat = v.toNat / 2 * 2 := addrOperand_eq v
  omega

theorem AtWords.absTarget {s : State} (h : AtWords s) (a : Nat) : WordAddr s.cfg (absTarget s a) := by
  refine wordAddr_wrapAddr s.cfg _ h.bits ?_
  obtain ⟨heven, -⟩ := h.reloc
  omega

/-- A number of words on or back from the DPC is a word's address again (R38, R43). -/
theorem AtWords.dpc_add {s : State} (h : AtWords s) (d : Int) :
    WordAddr s.cfg (wrapAddr s.cfg ((s.dpc : Int) + 2 * d)) := by
  refine wordAddr_wrapAddr s.cfg _ h.bits ?_
  obtain ⟨heven, -⟩ := h.dpc
  omega

theorem AtWords.advanceDpc {s : State} (h : AtWords s) : AtWords (advanceDpc s) := { h with dpc := h.dpc_add 1 }

theorem AtWords.hang {s : State} (h : AtWords s) : AtWords (hang s) := by
  have hback := h.dpc_add (-1)
  rw [Int.mul_neg, Int.mul_one, ← Int.sub_eq_add_neg] at hback
  exact { h with dpc := hback }

theorem AtWords.jumpAbs {s : State} (h : AtWords s) (a : Nat) : AtWords (jumpAbs a s) :=
  { h with dpc := h.absTarget a }

/-! ## The stack -/

/-- A call saves the DPC it had in the frame it takes (R97). -/
theorem AtWords.callSub {s : State} (h : AtWords s) {target : Nat} (ht : WordAddr s.cfg target) :
    AtWords (callSub target s) := by
  by_cases hfull : s.sp = 0
  · rw [callSub_of_full target s hfull]
    exact { h with }
  · rw [callSub_of_room target s (Fin.pos_iff_ne_zero.2 hfull)]
    refine { h with dpc := ht, frames := fun i => ?_ }
    dsimp only
    rw [Vector.getElem_set]
    split
    · exact h.dpc
    · exact h.frames i

/-- A pop takes the DPC that the frame saved (R98). -/
theorem AtWords.pop {s : State} (h : AtWords s) (restore : Bool) : AtWords (pop restore s) := by
  by_cases hframe : s.sp.val < 8
  · have hsaved : WordAddr s.cfg (s.stk[s.sp.val]).dpc := h.frames ⟨s.sp.val, hframe⟩
    rw [pop_of_frame restore s hframe]
    cases restore <;> exact { h with dpc := hsaved }
  · rw [pop_eq_of_empty restore s hframe]
    exact { h with }

/-! ## The data words -/

theorem AtWords.drawn {s t : State} (h : AtWords s) (hd : Drawn s t) : AtWords t := by
  obtain ⟨v, rfl⟩ : ∃ v, t = drawnState s v := ⟨t, hd⟩
  exact { h with }

/-- Of the characters only the terminate character, which pops, changes an address (R138). -/
theorem AtWords.charItem {s : State} (h : AtWords s) (b : BitVec 7) : AtWords (charItem b s).1 := by
  cases hterm : terminates b s with
  | true =>
    rw [charItem_of_terminates hterm]
    exact h.pop true
  | false =>
    obtain ⟨v, hv⟩ : ∃ v, (Machine.charItem b s).1 = drawnState (charState s v) v := ⟨_, charDrawn_charItem hterm⟩
    rw [hv]
    exact { h with }

theorem AtWords.pairItem {s : State} (h : AtWords s) (k : PairKind) (b : BitVec 7) : AtWords (pairItem k b s).1 := by
  cases k with
  | char => exact h.charItem b
  | bsvect => exact h.drawn (drawn_bsvItem b s)

theorem AtWords.execPair {s : State} (h : AtWords s) (k : PairKind) (b0 b1 : BitVec 7) :
    AtWords (execPair k b0 b1 s) := by
  have hfirst := h.pairItem k b0
  unfold Machine.execPair
  dsimp only
  split_ifs
  · exact hfirst
  · exact hfirst.pairItem k b1
  · exact { hfirst with }

theorem AtWords.halfStep {s : State} (h : AtWords s) (k : Half) : AtWords (halfStep k s) :=
  AtWords.pairItem (s := { s with pendHalf := none }) { h with } k.kind k.item

theorem AtWords.assemble {s : State} (h : AtWords s) (m : Mode) {item : List Word → State → State}
    (hitem : ∀ ws s, Drawn s (item ws s)) (w : Word) : AtWords (assemble m item w s) :=
  AtWords.drawn (s := { s with acc := (Machine.assemble m item w s).acc }) { h with } (drawn_assemble m hitem w s)

theorem AtWords.assemble_point {s : State} (h : AtWords s) (w : Word) :
    AtWords (Machine.assemble .point pointModeItem w s) :=
  AtWords.drawn (s := { s with acc := (Machine.assemble .point pointModeItem w s).acc,
                               off := (Machine.assemble .point pointModeItem w s).off })
    { h with } (drawn_assemble_point w s)

/-! ## The control instructions and the fetched word -/

theorem AtWords.loadStatusA {s : State} (h : AtWords s) (f : LsraFields) : AtWords (loadStatusA f s) := by
  unfold Machine.loadStatusA
  dsimp only
  split_ifs <;> exact ⟨h.bits, h.dpc, h.reloc, h.frames⟩

/-- Of the instructions only the jumps, the calls, the pops and the unrecognized write an address. -/
theorem AtWords.exec {s : State} (h : AtWords s) (i : Instr) : Ensures AtWords (exec i s) := by
  cases i with
  | djmpRel disp => exact .next { h with dpc := h.dpc_add disp }
  | djsrRel disp => exact .next (h.callSub (h.dpc_add disp))
  | dpopNr ign => exact .next (h.pop false)
  | dpopR ign => exact .next (h.pop true)
  | illegalSub5 low | illegalSub6 low | illegalSub7 low | illegalOp7 low | illegalOp8 low | illegalOp9 low
  | illegalOp10 low | illegalOp11 low => exact .next h.hang
  | ldnr name =>
    rw [exec_ldnr, execLdnr]
    dsimp only
    split <;> exact .next { h with }
  | lsra f => exact .next (h.loadStatusA f)
  | dstop => exact .next (h.loadStatusA dstopFields)
  | charData f | bsvectData f => exact .next (h.execPair ..)
  | svectData f | lvectData f | absvecData f => exact .next (h.assemble _ (fun _ _ => drawn_vecItem ..) _)
  | pointData f | offsetData f => exact .next (h.assemble_point _)
  | graphxData f | graphyData f | relpointData f => exact .next (h.assemble _ (fun _ _ => drawn_pointItem ..) _)
  | circleData f => exact .next (h.assemble .circle (fun _ _ => drawn_arcItem ..) _)
  | _ => exact .next ⟨h.bits, h.dpc, h.reloc, h.frames⟩

theorem wordYields_atWords : WordYields AtWords AtWords where
  nothing _ h := h
  ctlPend _ _ h := { h with }
  jumpAbs a _ h := h.jumpAbs a
  callAbs a _ h := h.callSub (h.absTarget a)
  loadAssoc _ _ h := { h with }
  hang _ h := h.hang
  exec i _ h _ := h.exec i

/-! ## The cycle and the host's operations -/

theorem cycleKeeps_atWords : CycleKeeps AtWords where
  sample inp s h := by
    rw [sample_eq]
    exact { h with }
  countCycle _ h := { h with }
  clipStep c s h _ := h.drawn (drawn_clipStep c s)
  halfStep k _ h _ := h.halfStep k
  fetchTimeout _ h := { h with }
  dispatchWord w _ h := wordYields_atWords.dispatchWord h.advanceDpc w
  check s h := by
    rw [check_eq]
    exact { h with }
  age e s h := by
    rw [age_eq]
    exact { h with }

/-- A START loads the DPC with bit 0 cleared; a RESUME leaves it (R40, R82, R83). -/
theorem AtWords.setDpc {s : State} (h : AtWords s) (v : Word) : AtWords (setDpc v s) := by
  unfold Machine.setDpc
  split
  · rw [resume_eq]
    exact { h with }
  · exact { h with dpc := wordAddr_evenAddr h.bits v }

/-- A write of a device register leaves the relocation or sets it to a word's address (R86). -/
theorem hostWrite_reloc {i : Fin 16} (hi : i ≠ 0) (v : Word) (s : State) :
    (hostWrite i v s).regs.reloc = s.regs.reloc ∨ (hostWrite i v s).regs.reloc = evenAddr s.cfg v := by
  have hval : i.val ≠ 0 := fun h => hi (Fin.ext h)
  unfold hostWrite writeStackAddress vs60Write writeXPosition writeYPosition writeColor
  split
  case h_1 h0 => exact absurd h0 hval
  case h_2 | h_6 | h_11 | h_12 => exact .inl rfl
  case h_5 =>
    split
    · exact .inr rfl
    · exact .inl rfl
  all_goals split <;> exact .inl rfl

theorem AtWords.hostWrite {s : State} (h : AtWords s) (i : Fin 16) (v : Word) : AtWords (hostWrite i v s) := by
  by_cases hi : i = 0
  · subst hi
    exact h.setDpc v
  · have hreloc : WordAddr s.cfg (Machine.hostWrite i v s).regs.reloc := by
      obtain hkept | hset := hostWrite_reloc hi v s
      · rw [hkept]
        exact h.reloc
      · rw [hset]
        exact wordAddr_evenAddr h.bits v
    rw [hostWrite_eq hi]
    exact { h with reloc := hreloc }

theorem AtWords.hostStep {s : State} (h : AtWords s) (op : HostOp) : Ensures AtWords (hostStep op s) := by
  cases op with
  | cycle inp => exact cycleKeeps_atWords.cycle inp h
  | setDpc v => exact .next (h.setDpc v)
  | hostWrite i v => exact .next (h.hostWrite i v)
  | hostRead i | store a w => exact .next { h with }
  | extStop =>
    refine .next ?_
    rw [extStop_eq]
    split
    · exact h
    · exact { h with }
  | reset => exact .next { h with dpc := wordAddr_zero s.cfg, reloc := wordAddr_zero s.cfg }
  | init name scale =>
    refine .next ?_
    rw [initEngine_eq]
    exact { h with }

/-- Settles O55: legal parameters give addresses a bit 0, and each operation writes even addresses alone. -/
theorem stepKeepsAddressesAligned : Obligations.StepKeepsAddressesAligned := by
  intro s t hlegal h ht
  have hbits : 1 ≤ s.cfg.addrBits := by
    simp only [Params.legal, Bool.and_eq_true, decide_eq_true_eq] at hlegal
    exact hlegal.1.1
  obtain ⟨hdpc, hreloc, hframes⟩ := h
  have hstart : AtWords s := ⟨hbits, hdpc, hreloc, hframes⟩
  refine (step_ensures (P := AtWords) (fun _ => ?_) (fun op rest _ => ?_) t ht).aligned
  · exact cycleKeeps_atWords.cycle (s := { s with out := [] }) _ { hstart with }
  · exact AtWords.hostStep (s := { s with out := [], todo := rest }) { hstart with } op

end Sys2Proof.Machine

/-! PROOFS. O8 and O50: what a cycle does in a wait (R18, R75, R76, R153), and which steps leave each wait (R171,
R173). -/

namespace Sys2Proof.Machine

/-! ## A cycle out of Running -/

/-- A cycle out of Running samples, with nothing to report, and ages (R75, R76). -/
theorem cycle_of_not_running (inp : CycleIn) {s : State} (hready : s.ph.ready = true) (hrun : s.run ≠ .running) :
    cycle inp s = .next (age inp.elapsed { s with
      tick := s.tick + 1, blinkOn := inp.blinkOn, flags := { s.flags with tipSw := inp.tip },
      ph := { s.ph with penX := inp.mouseX * s.ph.scale, penY := inp.mouseY * s.ph.scale } }) := by
  unfold cycle
  rw [if_pos hready, sample_of_not_running inp hrun]
  exact if_neg hrun

/-- Settles O8: the sample of a machine that waits, then the aging. -/
theorem waitingCycleOnlyAges : Obligations.WaitingCycleOnlyAges := by
  intro s inp rest htodo hready hrun
  have hcycle := cycle_of_not_running inp (s := { s with todo := rest, out := [] }) hready hrun
  exact ⟨_, _, _, (step_of_todo htodo).trans (hcycle.trans (congrArg _ (age_eq ..)))⟩

/-! ## The run state after each operation -/

/-- A machine that waited for frame sync runs, the target being reached (R153). -/
def Synced (s t : State) : Prop := s.run = .awaitSync ∧ t.run = .running ∧ s.syncTarget ≤ t.ph.clock

/-- An operation of the host that can move a machine that waits: a START, a Reset, which halts it, and in a wait for a
reason any write of the DPC (R171, R173). -/
def Moves (op : HostOp) (s t : State) : Prop :=
  isStart op = true ∨ (op = .reset ∧ t.run = .halted) ∨
    ((∃ r, s.run = .awaitResume r) ∧ ∃ v, op = .setDpc v ∨ op = .hostWrite 0 v)

/-- A cycle moves only a machine that waits for frame sync (R75, R153). -/
theorem cycle_run (inp : CycleIn) {s : State} (hrun : s.run ≠ .running) :
    Ensures (fun t => t.run = s.run ∨ Synced s t) (cycle inp s) := by
  cases hready : s.ph.ready with
  | false =>
    rw [cycle_refused inp hready]
    exact .refused _
  | true =>
    rw [cycle_of_not_running inp hready hrun, age_eq]
    refine .next ?_
    by_cases hsync : s.run = .awaitSync ∧ s.syncTarget ≤ s.ph.clock + inp.elapsed
    · exact .inr ⟨hsync.1, if_pos hsync, hsync.2⟩
    · exact .inl (if_neg hsync)

/-- A write of the DPC keeps the run state unless it is a START or ends a wait for a reason (R81, R83). -/
theorem setDpc_run (v : Word) (s : State) :
    (setDpc v s).run = s.run ∨ bit v 0 = false ∨ ∃ r, s.run = .awaitResume r := by
  cases hodd : bit v 0 with
  | false => exact .inr (.inl rfl)
  | true =>
    by_cases hwait : ∃ r, s.run = .awaitResume r
    · exact .inr (.inr hwait)
    · left
      rw [setDpc_of_odd s hodd, resume_of_not_waiting s fun r hr => hwait ⟨r, hr⟩]

/-- A write of the DPC in either form moves the machine as a START or out of a wait for a reason, or not at all. -/
theorem moves_setDpc {op : HostOp} {v : Word} (hop : op = .setDpc v ∨ op = .hostWrite 0 v) (s : State) :
    (setDpc v s).run = s.run ∨ Moves op s (setDpc v s) := by
  obtain hkept | hstart | hwait := setDpc_run v s
  · exact .inl hkept
  · refine .inr (.inl ?_)
    obtain rfl | rfl := hop <;> exact congrArg Bool.not hstart
  · exact .inr (.inr (.inr ⟨hwait, v, hop⟩))

theorem hostStep_run {s : State} (hrun : s.run ≠ .running) (op : HostOp) :
    Ensures (fun t => t.run = s.run ∨ Moves op s t ∨ Synced s t) (hostStep op s) := by
  cases op with
  | cycle inp => exact (cycle_run inp hrun).imp fun _ ht => ht.imp_right .inr
  | setDpc v => exact .next ((moves_setDpc (.inl rfl) s).imp_right .inl)
  | hostWrite i v =>
    refine .next ?_
    by_cases hi : i = 0
    · subst hi
      exact (moves_setDpc (.inr rfl) s).imp_right .inl
    · left
      rw [hostWrite_eq hi]
  | hostRead i | store a w => exact .next (.inl rfl)
  | extStop =>
    refine .next (.inl ?_)
    rw [extStop_eq]
    split <;> rfl
  | reset => exact .next (.inr (.inl (.inr (.inl ⟨rfl, rfl⟩))))
  | init name scale =>
    refine .next (.inl ?_)
    rw [initEngine_eq]

/-- A step moves a machine that waits by the operation listed first, or as a cycle that reaches its target. -/
theorem step_run {s : State} (hrun : s.run ≠ .running) :
    Ensures (fun t => t.run = s.run ∨ (∃ op, s.todo.head? = some op ∧ Moves op s t) ∨ Synced s t) (step s) := by
  refine step_ensures (fun _ => ?_) fun op rest htodo => ?_
  · exact (cycle_run (s := { s with out := [] }) _ hrun).imp fun _ ht => ht.imp_right .inr
  · refine (hostStep_run (s := { s with out := [], todo := rest }) hrun op).imp fun _ ht => ?_
    exact ht.imp_right (Or.imp_left fun hmoves => ⟨op, by rw [htodo]; rfl, hmoves⟩)

/-- A START is a write of the DPC (R81). -/
theorem dpcWrite_of_isStart {op : HostOp} (h : isStart op = true) : ∃ v, op = .setDpc v ∨ op = .hostWrite 0 v := by
  cases op with
  | setDpc v => exact ⟨v, .inl rfl⟩
  | hostWrite i v =>
    obtain ⟨hi, -⟩ := Bool.and_eq_true_iff.1 h
    exact ⟨v, .inr (by rw [beq_iff_eq.1 hi])⟩
  | _ => cases h

/-- Settles O50: of what can move a machine that waits, each run state leaves out what does not move it. -/
theorem waitStatesAreLeftOnlyAsStated : Obligations.WaitStatesAreLeftOnlyAsStated := by
  intro s t hstep hmoved
  refine ⟨fun hrun => ?halted, fun hrun => ?hung, fun r hrun => ?awaitResume, fun hrun => ?awaitSync⟩
  all_goals
    have hcause := (step_run (by simp [hrun]) t hstep).resolve_left hmoved
    simp only [Moves, Synced, hrun] at hcause
  case halted =>
    obtain ⟨op, hop, hstart | ⟨-, hhalted⟩ | ⟨⟨_, hno⟩, -⟩⟩ | ⟨hno, -⟩ := hcause
    · exact ⟨op, hop, hstart⟩
    · exact absurd (hhalted.trans hrun.symm) hmoved
    · cases hno
    · cases hno
  case hung =>
    obtain ⟨op, hop, hstart | ⟨hreset, -⟩ | ⟨⟨_, hno⟩, -⟩⟩ | ⟨hno, -⟩ := hcause
    · exact ⟨op, hop, .inl hstart⟩
    · exact ⟨op, hop, .inr hreset⟩
    · cases hno
    · cases hno
  case awaitResume =>
    obtain ⟨op, hop, hstart | ⟨hreset, -⟩ | ⟨-, hwrite⟩⟩ | ⟨hno, -⟩ := hcause
    · exact ⟨op, hop, .inr (dpcWrite_of_isStart hstart)⟩
    · exact ⟨op, hop, .inl hreset⟩
    · exact ⟨op, hop, .inr hwrite⟩
    · cases hno
  case awaitSync =>
    obtain ⟨op, hop, hstart | ⟨hreset, -⟩ | ⟨⟨_, hno⟩, -⟩⟩ | ⟨-, hsynced⟩ := hcause
    · exact .inl ⟨op, hop, .inl hstart⟩
    · exact .inl ⟨op, hop, .inr hreset⟩
    · cases hno
    · exact .inr hsynced

end Sys2Proof.Machine

/-! PROOFS. O52: what a write of each device register but the DPC changes (R31, R86; logs 1, 13). -/

namespace Sys2Proof.Machine

section
variable (v : Word) {s : State}

theorem vs60Write_of_vs60 (h : s.cfg.variant = .vs60) (t : State) : vs60Write s t = t := by
  simp [vs60Write, isVs60, h]

/-- The address that a word names is the word without bit 0, modulo the address space (R40, R43). -/
theorem evenAddr_eq (c : Params) : evenAddr c v = v.toNat / 2 * 2 % 2 ^ c.addrBits :=
  calc evenAddr c v = wrapAddr c (addrOperand v : Nat) := rfl
    _ = v.toNat / 2 * 2 % 2 ^ c.addrBits := by rw [wrapAddr_natCast, addrOperand_eq]

/-! ## The registers of the VS60 -/

/-- On the VT11 the registers that only the VS60 has ignore a write (R86). -/
theorem hostWrite_of_vt11 (h : s.cfg.variant = .vt11) {i : Fin 16}
    (hi : i ∈ ([4, 6, 7, 8, 12, 13, 14, 15] : List (Fin 16))) : hostWrite i v s = s := by
  simp only [List.mem_cons, List.not_mem_nil, or_false] at hi
  rcases hi with rfl | rfl | rfl | rfl | rfl | rfl | rfl | rfl <;> exact vs60Write_of_vt11 h _

section
variable (h : s.cfg.variant = .vs60)
include h

theorem hostWrite_reloc_eq :
    hostWrite 4 v s = { s with regs := { s.regs with reloc := v.toNat / 2 * 2 % 2 ^ s.cfg.addrBits } } := by
  rw [← evenAddr_eq]
  exact vs60Write_of_vs60 h _

theorem hostWrite_assoc_eq :
    hostWrite 8 v s = { s with regs := { s.regs with assoc := v.toNat % 2048 % 2 ^ s.cfg.nameBits } } := by
  rw [← assocOperand_eq]
  exact vs60Write_of_vs60 h _

theorem hostWrite_posZ_eq : hostWrite 14 v s = { s with pos := { s.pos with z := v.toInt - s.off.z } } :=
  vs60Write_of_vs60 h _

/-- A write of the Z-position register makes the word the displayed Z of the position (R86). -/
theorem displayed_hostWrite_posZ : (displayed s (hostWrite 14 v s).pos).z = v.toInt := by
  rw [hostWrite_posZ_eq v h, displayed_eq]
  simp [h]

theorem hostWrite_stackAddress_eq :
    hostWrite 13 v s = { s with regs := { s.regs with
      stackAddr := stackAddrOf (layoutWord s.cfg 13 v), stackIntrEna := bit (layoutWord s.cfg 13 v) 4 } } :=
  vs60Write_of_vs60 h _

end

/-! ## The registers of open layout -/

section
variable (h : s.cfg.hostRegLayout = .reference)
include h

theorem layoutWord_of_reference (i : Nat) : layoutWord s.cfg i v = v := by
  unfold layoutWord
  rw [h]

/-- In the default layout a write of a position register sets nothing (R86). -/
theorem writePosition_of_reference : hostWrite 2 v s = s ∧ hostWrite 3 v s = s := by
  show writeXPosition v s = s ∧ writeYPosition v s = s
  unfold writeXPosition writeYPosition
  rw [h]
  exact ⟨rfl, rfl⟩

theorem hostWrite_color_of_reference : hostWrite 9 v s = if s.ph.profile.nColors = 2 then
    { s with regs := { s.regs with color := v.extractLsb' 0 1 } } else s := by
  show writeColor (layoutWord s.cfg 9 v) s = _
  rw [layoutWord_of_reference v h]
  rfl

end

/-- In any layout a write of Graphplot/X-position sets the graphplot increment and X at most (log 13). -/
theorem hostWrite_xPosition_eq (s : State) :
    hostWrite 2 v s = { s with regs := { s.regs with graphInc := (hostWrite 2 v s).regs.graphInc },
                               pos := ⟨(hostWrite 2 v s).pos.x, s.pos.y, s.pos.z⟩ } := by
  have hwrite : hostWrite 2 v s = writeXPosition v s := rfl
  rw [hwrite, writeXPosition]
  split <;> rfl

/-- In any layout a write of CharBuf/Y-position sets Y at most (log 13). -/
theorem hostWrite_yPosition_eq (s : State) :
    hostWrite 3 v s = { s with pos := ⟨s.pos.x, (hostWrite 3 v s).pos.y, s.pos.z⟩ } := by
  have hwrite : hostWrite 3 v s = writeYPosition v s := rfl
  rw [hwrite, writeYPosition]
  split <;> rfl

end

/-- Settles O52: each register's write as an equation, those of the VS60 by the variant. -/
theorem registerWritesHaveTheirEffects : Obligations.RegisterWritesHaveTheirEffects := by
  intro s v
  refine ⟨fun i hi => ?_, writePosition_of_reference v, hostWrite_xPosition_eq v s, hostWrite_yPosition_eq v s,
    fun h i => hostWrite_of_vt11 v h, hostWrite_color_of_reference v, fun h => ?_⟩
  · simp only [List.mem_cons, List.not_mem_nil, or_false] at hi
    rcases hi with rfl | rfl | rfl | rfl <;> rfl
  · refine ⟨hostWrite_reloc_eq v h, vs60Write_of_vs60 h _, vs60Write_of_vs60 h _, vs60Write_of_vs60 h _,
      hostWrite_assoc_eq v h, vs60Write_of_vs60 h _, displayed_hostWrite_posZ v h, ?_, fun hlayout => ?_, ?_⟩
    · rw [hostWrite_posZ_eq v h]
    · rw [hostWrite_stackAddress_eq v h, layoutWord_of_reference v hlayout]
      exact ⟨rfl, rfl⟩
    · rw [hostWrite_stackAddress_eq v h]

end Sys2Proof.Machine

/-! PROOFS. O51: what a read of each device register gives (R31 to R34, R85; log 13). A register is its word of the
default layout outside the open bits; a word of the default layout is its fields appended, the highest first. -/

namespace Sys2Proof.Machine

/-! ## Outside the open bits -/

section
variable {s : State} {i : Fin 16}

/-- A bit that no layout may change is the default layout's. -/
theorem hostRead_bit {k : Nat} (h : bit (openBits s.cfg.variant i.val) k = false) :
    bit (hostRead i s) k = bit (layoutRead i s) k := by
  unfold hostRead
  split
  · rfl
  · obtain hk | hk := Nat.lt_or_ge k 16
    · simp only [bit] at h
      simp only [bit, BitVec.getLsbD_or, BitVec.getLsbD_and, BitVec.getLsbD_not, h, hk, decide_true, Bool.not_false,
        Bool.and_true, Bool.and_false, Bool.or_false]
    · simp only [bit, BitVec.getLsbD_of_ge _ k hk]

/-- A field none of whose bits a layout may change is the default layout's. -/
theorem hostRead_field {lo n : Nat} (h : field (openBits s.cfg.variant i.val) lo n = 0) :
    field (hostRead i s) lo n = field (layoutRead i s) lo n := by
  refine BitVec.eq_of_getLsbD_eq fun k hk => ?_
  have hclosed := congrArg (BitVec.getLsbD · k) h
  simp only [BitVec.getLsbD_extractLsb', hk, decide_true, Bool.true_and] at hclosed ⊢
  exact hostRead_bit (hclosed.trans BitVec.getLsbD_zero)

/-- A register without open bits reads the default layout's word. -/
theorem hostRead_of_closed (h : openBits s.cfg.variant i.val = 0) : hostRead i s = layoutRead i s :=
  BitVec.eq_of_getLsbD_eq fun _ _ => hostRead_bit (by rw [h]; exact BitVec.getLsbD_zero)

/-- In the default layout every register reads the default layout's word. -/
theorem hostRead_of_reference (i : Fin 16) (h : s.cfg.hostRegLayout = .reference) :
    hostRead i s = layoutRead i s := by
  unfold hostRead
  rw [h]

end

/-! ## The words of the default layout -/

section
variable (s : State)

/-- The one-bit fields of Mode-Parameter (R32). -/
theorem readModeParameter_bits :
    bit (readModeParameter s) 15 = s.flags.stopFlag ∧ bit (readModeParameter s) 7 = s.flags.lpFlag ∧
    bit (readModeParameter s) 6 = s.regs.so ∧ bit (readModeParameter s) 5 = (isVs60 s && s.flags.edgeFlag) ∧
    bit (readModeParameter s) 4 = s.P.italics ∧ bit (readModeParameter s) 3 = s.P.blinkEna := by
  simp only [bit, readModeParameter, vs60Bit, BitVec.getLsbD_append, BitVec.getLsbD_ofBool]
  simp

/-- The wider fields of Mode-Parameter (R32). -/
theorem readModeParameter_fields :
    field (readModeParameter s) 11 4 = modeCode s.P.mode ∧ field (readModeParameter s) 8 3 = s.P.intensity ∧
    field (readModeParameter s) 0 2 = lineTypeCode s.P.lineType := by
  unfold readModeParameter
  simp (disch := decide) only [field, BitVec.extractLsb'_append_eq_of_le, BitVec.extractLsb'_append_eq_of_add_le]
  simp

/-- The graphplot increment stands above the ten bits of X (R33). -/
theorem readXPosition_fields : field (readXPosition s) 10 6 = s.regs.graphInc ∧
    field (readXPosition s) 0 10 = BitVec.ofInt 10 s.rpt.x :=
  ⟨BitVec.extractLsb'_append_eq_left, BitVec.extractLsb'_append_eq_right⟩

/-- The low ten bits of CharBuf/Y-position are Y's (R34). -/
theorem readYPosition_field : field (readYPosition s) 0 10 = BitVec.ofInt 10 s.rpt.y :=
  BitVec.extractLsb'_append_eq_right

/-- The bits of Status-Parameter, the lowest first (R85). -/
theorem readStatusParameter_bits :
    bit (readStatusParameter s) 0 = s.flags.stackOver ∧ bit (readStatusParameter s) 1 = s.flags.stackUnder ∧
    bit (readStatusParameter s) 2 = s.flags.timeOut ∧ bit (readStatusParameter s) 3 = s.flags.charFault ∧
    bit (readStatusParameter s) 4 = (isVs60 s && s.flags.nameMatch) ∧
    bit (readStatusParameter s) 5 = s.flags.extStopFlag ∧ bit (readStatusParameter s) 6 = s.flags.tipChanged ∧
    bit (readStatusParameter s) 7 = s.flags.tipSw ∧
    bit (readStatusParameter s) 8 = (isVs60 s && s.flags.edgeExit) ∧
    bit (readStatusParameter s) 9 = (isVs60 s && s.P.depthCue) ∧
    bit (readStatusParameter s) 10 = (isVs60 s && s.P.edgeIntrEna) ∧
    bit (readStatusParameter s) 11 = (isVs60 s && s.P.fileZ) ∧
    bit (readStatusParameter s) 12 = (isVs60 s && s.P.charEsc) ∧
    bit (readStatusParameter s) 13 = (isVs60 s && s.regs.nameIntrEna) ∧
    bit (readStatusParameter s) 14 = (isVs60 s && s.regs.menu) ∧
    bit (readStatusParameter s) 15 = (isVs60 s && s.P.rotate) := by
  simp only [bit, readStatusParameter, vs60Bit, BitVec.getLsbD_append, BitVec.getLsbD_ofBool]
  simp

/-- The one-bit fields of Slave-Console/Color above its lowest bit (R85). -/
theorem readColor_bits :
    bit (readColor s) 1 = (isVs60 s && s.regs.cons0) ∧ bit (readColor s) 2 = (isVs60 s && s.regs.cons1) ∧
    bit (readColor s) 3 = false ∧ bit (readColor s) 10 = s.regs.stopIntrEna ∧ bit (readColor s) 11 = false := by
  simp only [bit, readColor, vs60Bit, BitVec.getLsbD_append, BitVec.getLsbD_ofBool]
  simp

/-- The other fields of Slave-Console/Color (R85). -/
theorem readColor_fields :
    field (readColor s) 0 1 = s.regs.color ∧ field (readColor s) 4 4 = vs60Field s s.P.vscale ∧
    field (readColor s) 8 2 = vs60Field s s.P.csIndex ∧ field (readColor s) 12 2 = s.regs.syncRate ∧
    field (readColor s) 14 2 = 0 := by
  unfold readColor
  simp (disch := decide) only [field, BitVec.extractLsb'_append_eq_of_le, BitVec.extractLsb'_append_eq_of_add_le]
  simp

/-- The index, the enable and the pointer as one number (R85). -/
theorem readStackAddress_toNat : (readStackAddress s).toNat =
    s.regs.stackAddr.val + (if s.regs.stackIntrEna then 16 else 0) + 256 * s.sp.val := by
  have hfields : ∀ (a p : Fin 9) (e : Bool),
      (0#4 ++ BitVec.ofNat 4 p.val ++ 0#3 ++ BitVec.ofBool e ++ BitVec.ofNat 4 a.val).toNat =
        a.val + (if e then 16 else 0) + 256 * p.val := by decide
  exact hfields s.regs.stackAddr s.sp s.regs.stackIntrEna

/-- The index 8 names the DPC (R85). -/
theorem readStackData_of_dpc (h : s.regs.stackAddr = 8) : (readStackData s).toNat = s.dpc % 65536 := by
  unfold readStackData
  rw [dif_neg (by simp [h])]
  exact BitVec.toNat_ofNat s.dpc 16

/-- An index below 8 names a frame, which reads 0 where it is not in use (R85). -/
theorem readStackData_of_frame (h : s.regs.stackAddr.val < 8) : (readStackData s).toNat =
    if s.sp.val ≤ s.regs.stackAddr.val then (s.stk[s.regs.stackAddr.val]).dpc % 65536 else 0 := by
  unfold readStackData
  rw [dif_pos h]
  split
  · exact BitVec.toNat_ofNat _ 16
  · rfl

end

/-! ## The registers -/

/-- A coordinate in ten bits is the coordinate modulo 1024 (R33, R34). -/
theorem ofInt_ten_toNat (z : Int) : ((BitVec.ofInt 10 z).toNat : Int) = z % 1024 := by
  rw [BitVec.toNat_ofInt]
  exact Int.toNat_of_nonneg (Int.emod_nonneg z (by decide))

section
variable {s : State}

theorem hostRead_dpc : (hostRead 0 s).toNat = s.dpc % 65536 := by
  rw [hostRead_of_closed rfl]
  exact BitVec.toNat_ofNat s.dpc 16

/-- Of Mode-Parameter bit 2 alone is open (R32). -/
theorem hostRead_modeParameter_bit {k : Nat} {b : Bool} (hk : bit 0x0004 k = false)
    (hb : bit (readModeParameter s) k = b) : bit (hostRead 1 s) k = b := (hostRead_bit (s := s) (i := 1) hk).trans hb

theorem hostRead_modeParameter_field {lo n : Nat} {v : BitVec n} (hk : field 0x0004 lo n = 0)
    (hv : field (readModeParameter s) lo n = v) : field (hostRead 1 s) lo n = v :=
  (hostRead_field (s := s) (i := 1) hk).trans hv

/-- Only on the VS60, and there only in another layout, is the graphplot increment not above X (R33; log 13). -/
theorem hostRead_xPosition_inc (h : s.cfg.variant = .vt11 ∨ s.cfg.hostRegLayout = .reference) :
    field (hostRead 2 s) 10 6 = s.regs.graphInc := by
  have hword : hostRead 2 s = readXPosition s := by
    obtain hvt11 | hreference := h
    · exact hostRead_of_closed (by rw [hvt11]; rfl)
    · exact hostRead_of_reference 2 hreference
  obtain ⟨hinc, -⟩ := readXPosition_fields s
  rw [hword]
  exact hinc

/-- The low ten bits of Graphplot/X-position are X's in every layout (R33). -/
theorem hostRead_xPosition_low : ((field (hostRead 2 s) 0 10).toNat : Int) = s.rpt.x % 1024 := by
  have hclosed : field (openBits s.cfg.variant 2) 0 10 = 0 := by
    cases s.cfg.variant <;> decide
  obtain ⟨-, hx⟩ := readXPosition_fields s
  have hread := (hostRead_field (s := s) (i := 2) hclosed).trans hx
  exact (congrArg (fun v => (v.toNat : Int)) hread).trans (ofInt_ten_toNat s.rpt.x)

/-- The low ten bits of CharBuf/Y-position are Y's in every layout (R34). -/
theorem hostRead_yPosition_low : ((field (hostRead 3 s) 0 10).toNat : Int) = s.rpt.y % 1024 := by
  have hclosed : field (openBits s.cfg.variant 3) 0 10 = 0 := by
    cases s.cfg.variant <;> decide
  have hread := (hostRead_field (s := s) (i := 3) hclosed).trans (readYPosition_field s)
  exact (congrArg (fun v => (v.toNat : Int)) hread).trans (ofInt_ten_toNat s.rpt.y)

end

/-- A register of one VS60 field reads it on the VS60 (R85). -/
theorem hostRead_of_vs60Field {i : Fin 16} {s : State} {v : Word} (hv : s.cfg.variant = .vs60)
    (hclosed : openBits s.cfg.variant i.val = 0) (hfield : layoutRead i s = vs60Field s v) : hostRead i s = v := by
  rw [hostRead_of_closed hclosed, hfield]
  simp [vs60Field, isVs60, hv]

/-- The registers of one VS60 field, and Associative-Name, read 0 on the VT11 (R85). -/
theorem hostRead_of_vt11 {i : Fin 16} {s : State} (hv : s.cfg.variant = .vt11)
    (hi : i ∈ ([4, 6, 7, 8, 10, 12, 14, 15] : List (Fin 16))) : hostRead i s = 0 := by
  have hzero (v : Word) : vs60Field s v = 0 := by simp [vs60Field, isVs60, hv]
  simp only [List.mem_cons, List.not_mem_nil, or_false] at hi
  rcases hi with rfl | rfl | rfl | rfl | rfl | rfl | rfl | rfl
  case inr.inr.inr.inl => exact hostRead_of_closed rfl
  all_goals exact (hostRead_of_closed rfl).trans (hzero _)

/-- Settles O51: each register's word by its fields; what a layout may change is in the open bits. -/
theorem registerReadsReturnTheirFields : Obligations.RegisterReadsReturnTheirFields := by
  refine ⟨fun s i rest htodo => step_of_todo htodo, ?anyLayout,
    fun s => ⟨fun hv => ?vs60, fun hv i => hostRead_of_vt11 hv, fun hlayout => ?defaultLayout⟩⟩
  case anyLayout =>
    rintro s _ _ _ rfl rfl rfl
    obtain ⟨hstop, hlp, hso, hedge, hitalics, hblink⟩ := readModeParameter_bits s
    obtain ⟨hmode, hint, hline⟩ := readModeParameter_fields s
    exact ⟨hostRead_dpc, hostRead_of_closed rfl, hostRead_modeParameter_bit (by decide) hstop,
      hostRead_modeParameter_field (by decide) hmode, hostRead_modeParameter_field (by decide) hint,
      hostRead_modeParameter_bit (by decide) hlp, hostRead_modeParameter_bit (by decide) hso,
      hostRead_modeParameter_bit (by decide) (hedge.trans (Bool.and_comm ..)),
      hostRead_modeParameter_bit (by decide) hitalics, hostRead_modeParameter_bit (by decide) hblink,
      hostRead_modeParameter_field (by decide) hline, hostRead_xPosition_inc, hostRead_xPosition_low,
      hostRead_yPosition_low⟩
  case vs60 =>
    refine ⟨?_, ?_, hostRead_of_vs60Field hv rfl rfl, hostRead_of_vs60Field hv rfl rfl,
      hostRead_of_vs60Field hv rfl rfl, hostRead_of_vs60Field hv rfl rfl, hostRead_of_vs60Field hv rfl rfl⟩
    · rw [hostRead_of_vs60Field (v := BitVec.ofNat 16 s.regs.reloc) hv rfl rfl]
      exact BitVec.toNat_ofNat s.regs.reloc 16
    · rw [hostRead_of_vs60Field (v := BitVec.ofNat 16 s.regs.name) hv rfl rfl]
      exact BitVec.toNat_ofNat s.regs.name 16
  case defaultLayout =>
    rw [hostRead_of_reference 11 hlayout, hostRead_of_reference 13 hlayout]
    refine ⟨readStackData_of_dpc s, readStackData_of_frame s, readStackAddress_toNat s, ?_⟩
    rintro a c vs60 rfl rfl rfl
    rw [hostRead_of_reference 5 hlayout, hostRead_of_reference 9 hlayout]
    obtain ⟨hcons0, hcons1, hlow, hstopEna, hhigh⟩ := readColor_bits s
    obtain ⟨hcolor, hvscale, hcs, hsync, htop⟩ := readColor_fields s
    have hall := And.intro (readStatusParameter_bits s) <| And.intro hcolor <| And.intro hcons0 <| And.intro hcons1 <|
      And.intro hlow <| And.intro hvscale <| And.intro hcs <| And.intro hstopEna <| And.intro hhigh <|
      And.intro hsync htop
    simp only [and_assoc] at hall
    exact hall

end Sys2Proof.Machine
